-- ==== Sys2Proof/Word.lean ====
section
/-! DEFINITION. Word.lean: bytes, and the operand widths W an instance of the WAU may be built with (spec 00_scope.md R6, R8). -/

namespace Sys2Proof

/-- One byte of a packed word as a host serialises it (20_memory.md R32). -/
abbrev Byte := BitVec 8

/-- The operand width W of an instance: the widths the spec names (R6). W = 64 is the extension "by the same pattern".
Other widths are not admitted (93_implementation_defined.md U6; DESIGN CHOICE, log entry 2). -/
inductive Width where
  | w8
  | w16
  | w32
  | w64
  deriving DecidableEq, Repr

/-- W in bits. -/
@[reducible] def Width.bits : Width → Nat
  | .w8 => 8
  | .w16 => 16
  | .w32 => 32
  | .w64 => 64

/-- MAX = 2^W − 1, the largest value of a W-bit port (R8). -/
def maxValue (w : Nat) : Nat := 2 ^ w - 1

end Sys2Proof
end

