-- ==== Sys2Proof/Config.lean ====
section
/-! DEFINITION. Config.lean: the parameters fixed when an instance is built, and the sizes derived from W (spec 00_scope.md R7,
R9; 30_encoding.md R43, R44). The hardware leaves no value open after an operation, so there is no free value here. -/

namespace Sys2Proof.Config

/-- ACCW, the accumulator width. The spec asks ACCW ≥ W + 1 and takes 2·W for this hardware (R7). No result depends on it
(R69; DESIGN CHOICE, log entry 10). -/
def accWidth (w : Nat) : Nat := 2 * w

/-- REQW = 3·W + 3, the width of the packed request word (R9, R43). -/
@[reducible] def reqWidth (w : Nat) : Nat := 3 * w + 3

/-- RSPW = W + 4, the width of the packed response word (R9, R44). -/
@[reducible] def rspWidth (w : Nat) : Nat := w + 4

/-- The number of bytes a word of `n` bits is serialised to, ⌈n / 8⌉ (20_memory.md R32). -/
def byteCount (n : Nat) : Nat := (n + 7) / 8

end Sys2Proof.Config
end

