-- ==== Sys2Proof/Machine/Request.lean ====
section
/-! DEFINITION. Machine/Request.lean: the plain data the hardware and its host exchange: operations, requests, responses, fault
causes (spec 00_scope.md R12, R14), and the entries of a host's request script (30_encoding.md R52, 70_reset_and_hazards.md R133). -/

namespace Sys2Proof

/-- The eight meanings of the 3-bit `op` field: seven operations and the reserved code (R2, R45, R49). -/
inductive Op where
  | rotaryAdd
  | rotarySub
  | cycleAdd
  | cycleSub
  | seriesAdd
  | seriesSub
  | seriesMod
  | reserved
  deriving DecidableEq, Repr

/-- `Request_W`: the values on the four input ports (R12, R15). -/
structure Request (w : Nat) where
  op : BitVec 3
  a : BitVec w
  b : BitVec w
  m : BitVec w
  deriving DecidableEq, Repr

/-- The two fault causes (60_exceptions.md R104). -/
inductive Cause where
  | zeroModulus
  | illegalOp
  deriving DecidableEq, Repr

/-- `Response_W`: a result with its advisory bit, or a fault, which carries no result (R12, R121). -/
inductive Response (w : Nat) where
  | ok (r : BitVec w) (pv : Bool)
  | fault (cause : Cause)
  deriving DecidableEq, Repr

/-- A request together with the instance it is presented to: the instance whose operand width is named. -/
inductive Presented where
  | r8 (q : Request 8)
  | r16 (q : Request 16)
  | r32 (q : Request 32)
  | r64 (q : Request 64)
  deriving DecidableEq, Repr

/-- A response together with the instance it was sampled from. -/
inductive Sampled where
  | r8 (p : Response 8)
  | r16 (p : Response 16)
  | r32 (p : Response 32)
  | r64 (p : Response 64)
  deriving DecidableEq, Repr

/-- An operand of a request script: a literal, or `$n`, the `r` of the `n`-th request of the same script (R52). -/
inductive Operand where
  | lit (v : Nat)
  | result (n : Nat)
  deriving DecidableEq, Repr

/-- One request of a script as the host holds it before substitution, with the width of the instance it is for (R52, R133).
The operation code is a number of three bits, never a `$n` (DESIGN CHOICE, log entry 7). -/
structure Entry where
  width : Width
  op : BitVec 3
  a : Operand
  b : Operand
  m : Operand
  deriving DecidableEq, Repr

end Sys2Proof
end

