-- ==== Sys2Proof/Syntax.lean ====
section
/-! DEFINITION. Syntax.lean: the instructions, one constructor for each row of spec/opcode_table.json. -/

namespace Sys2Proof

/-- One request to an instance of the named width, with the values of all three operand ports (spec 30_encoding.md R42, R45).
A constructor keeps the fields its operation does not read: they are don't-care (R48), not absent, so that no bit of a
request is dropped. For the cycle operations `m` is the base and for the series operations the limit (R16). -/
inductive Instr where
  /-- `rotary_add.8`, R72. -/
  | rotaryAdd8 (a b m : BitVec 8)
  /-- `rotary_sub.8`, R73. -/
  | rotarySub8 (a b m : BitVec 8)
  /-- `cycle_add.8`, R80. -/
  | cycleAdd8 (a b m : BitVec 8)
  /-- `cycle_sub.8`, R81. -/
  | cycleSub8 (a b m : BitVec 8)
  /-- `series_add.8`, R90. -/
  | seriesAdd8 (a b m : BitVec 8)
  /-- `series_sub.8`, R91. -/
  | seriesSub8 (a b m : BitVec 8)
  /-- `series_mod.8`, R92. -/
  | seriesMod8 (a b m : BitVec 8)
  /-- `reserved.8`, R49. -/
  | reserved8 (a b m : BitVec 8)
  /-- `rotary_add.16`, R72. -/
  | rotaryAdd16 (a b m : BitVec 16)
  /-- `rotary_sub.16`, R73. -/
  | rotarySub16 (a b m : BitVec 16)
  /-- `cycle_add.16`, R80. -/
  | cycleAdd16 (a b m : BitVec 16)
  /-- `cycle_sub.16`, R81. -/
  | cycleSub16 (a b m : BitVec 16)
  /-- `series_add.16`, R90. -/
  | seriesAdd16 (a b m : BitVec 16)
  /-- `series_sub.16`, R91. -/
  | seriesSub16 (a b m : BitVec 16)
  /-- `series_mod.16`, R92. -/
  | seriesMod16 (a b m : BitVec 16)
  /-- `reserved.16`, R49. -/
  | reserved16 (a b m : BitVec 16)
  /-- `rotary_add.32`, R72. -/
  | rotaryAdd32 (a b m : BitVec 32)
  /-- `rotary_sub.32`, R73. -/
  | rotarySub32 (a b m : BitVec 32)
  /-- `cycle_add.32`, R80. -/
  | cycleAdd32 (a b m : BitVec 32)
  /-- `cycle_sub.32`, R81. -/
  | cycleSub32 (a b m : BitVec 32)
  /-- `series_add.32`, R90. -/
  | seriesAdd32 (a b m : BitVec 32)
  /-- `series_sub.32`, R91. -/
  | seriesSub32 (a b m : BitVec 32)
  /-- `series_mod.32`, R92. -/
  | seriesMod32 (a b m : BitVec 32)
  /-- `reserved.32`, R49. -/
  | reserved32 (a b m : BitVec 32)
  /-- `rotary_add.64`, R72. -/
  | rotaryAdd64 (a b m : BitVec 64)
  /-- `rotary_sub.64`, R73. -/
  | rotarySub64 (a b m : BitVec 64)
  /-- `cycle_add.64`, R80. -/
  | cycleAdd64 (a b m : BitVec 64)
  /-- `cycle_sub.64`, R81. -/
  | cycleSub64 (a b m : BitVec 64)
  /-- `series_add.64`, R90. -/
  | seriesAdd64 (a b m : BitVec 64)
  /-- `series_sub.64`, R91. -/
  | seriesSub64 (a b m : BitVec 64)
  /-- `series_mod.64`, R92. -/
  | seriesMod64 (a b m : BitVec 64)
  /-- `reserved.64`, R49. -/
  | reserved64 (a b m : BitVec 64)
  deriving DecidableEq, Repr

end Sys2Proof
end

