-- ==== Sys2Proof/Decode.lean ====
section
/-! DEFINITION. Decode.lean: the operation codes, the packed request word REQ and its bytes, the decoder from them to Instr, and
the encoder (spec 20_memory.md R32, 30_encoding.md R42 to R51). -/

namespace Sys2Proof

/-! ## Operation codes (R45) -/

/-- The operation an `op` value selects. -/
def Op.ofCode (c : BitVec 3) : Op :=
  match c.toNat with
  | 0 => .rotaryAdd
  | 1 => .rotarySub
  | 2 => .cycleAdd
  | 3 => .cycleSub
  | 4 => .seriesAdd
  | 5 => .seriesSub
  | 6 => .seriesMod
  | _ => .reserved

/-- The `op` value of an operation. -/
def Op.code : Op → BitVec 3
  | .rotaryAdd => 0
  | .rotarySub => 1
  | .cycleAdd => 2
  | .cycleSub => 3
  | .seriesAdd => 4
  | .seriesSub => 5
  | .seriesMod => 6
  | .reserved => 7

/-! ## The packed request word (R43) -/

/-- REQ = {op, m, b, a}, `a` in the low bits. -/
def Request.word {w : Nat} (q : Request w) : BitVec (Config.reqWidth w) :=
  BitVec.cast (by simp only [Config.reqWidth]; omega) (q.op ++ q.m ++ q.b ++ q.a)

/-- The four fields of a packed request word: `a` at [W−1:0], `b` at [2W−1:W], `m` at [3W−1:2W], `op` at [3W+2:3W]. -/
def Request.ofWord {w : Nat} (x : BitVec (Config.reqWidth w)) : Request w where
  op := x.extractLsb' (3 * w) 3
  a := x.extractLsb' 0 w
  b := x.extractLsb' w w
  m := x.extractLsb' (2 * w) w

/-- The instance a request is presented to. -/
def Presented.width : Presented → Width
  | .r8 _ => .w8
  | .r16 _ => .w16
  | .r32 _ => .w32
  | .r64 _ => .w64

/-- The packed request word as a number. -/
def Presented.word : Presented → Nat
  | .r8 q => q.word.toNat
  | .r16 q => q.word.toNat
  | .r32 q => q.word.toNat
  | .r64 q => q.word.toNat

/-- The request to an instance of width `wd` whose packed word is `x`, taken modulo 2^REQW: bits above REQW are padding,
ignored when read (R32). -/
def Presented.ofWord (wd : Width) (x : Nat) : Presented :=
  match wd with
  | .w8 => .r8 (Request.ofWord (BitVec.ofNat _ x))
  | .w16 => .r16 (Request.ofWord (BitVec.ofNat _ x))
  | .w32 => .r32 (Request.ofWord (BitVec.ofNat _ x))
  | .w64 => .r64 (Request.ofWord (BitVec.ofNat _ x))

/-! ## Bytes, least significant first (R32) -/

/-- The low `k` bytes of a number: byte j holds bits [8j+7:8j]. -/
def toBytes : Nat → Nat → List Byte
  | 0, _ => []
  | k + 1, x => BitVec.ofNat 8 x :: toBytes k (x / 256)

/-- The number whose bytes these are. -/
def ofBytes : List Byte → Nat
  | [] => 0
  | c :: rest => c.toNat + 256 * ofBytes rest

/-- How many bytes a serialised request to an instance of this width has: 4, 7, 13 or 25 (R43). -/
def reqBytes (wd : Width) : Nat := Config.byteCount (Config.reqWidth wd.bits)

/-! ## From a request to an instruction, and back -/

/-- The instruction a request to the 8-bit instance is (R45). -/
def Request.instr8 (q : Request 8) : Instr :=
  match Op.ofCode q.op with
  | .rotaryAdd => .rotaryAdd8 q.a q.b q.m
  | .rotarySub => .rotarySub8 q.a q.b q.m
  | .cycleAdd => .cycleAdd8 q.a q.b q.m
  | .cycleSub => .cycleSub8 q.a q.b q.m
  | .seriesAdd => .seriesAdd8 q.a q.b q.m
  | .seriesSub => .seriesSub8 q.a q.b q.m
  | .seriesMod => .seriesMod8 q.a q.b q.m
  | .reserved => .reserved8 q.a q.b q.m

/-- The instruction a request to the 16-bit instance is (R45). -/
def Request.instr16 (q : Request 16) : Instr :=
  match Op.ofCode q.op with
  | .rotaryAdd => .rotaryAdd16 q.a q.b q.m
  | .rotarySub => .rotarySub16 q.a q.b q.m
  | .cycleAdd => .cycleAdd16 q.a q.b q.m
  | .cycleSub => .cycleSub16 q.a q.b q.m
  | .seriesAdd => .seriesAdd16 q.a q.b q.m
  | .seriesSub => .seriesSub16 q.a q.b q.m
  | .seriesMod => .seriesMod16 q.a q.b q.m
  | .reserved => .reserved16 q.a q.b q.m

/-- The instruction a request to the 32-bit instance is (R45). -/
def Request.instr32 (q : Request 32) : Instr :=
  match Op.ofCode q.op with
  | .rotaryAdd => .rotaryAdd32 q.a q.b q.m
  | .rotarySub => .rotarySub32 q.a q.b q.m
  | .cycleAdd => .cycleAdd32 q.a q.b q.m
  | .cycleSub => .cycleSub32 q.a q.b q.m
  | .seriesAdd => .seriesAdd32 q.a q.b q.m
  | .seriesSub => .seriesSub32 q.a q.b q.m
  | .seriesMod => .seriesMod32 q.a q.b q.m
  | .reserved => .reserved32 q.a q.b q.m

/-- The instruction a request to the 64-bit instance is (R45). -/
def Request.instr64 (q : Request 64) : Instr :=
  match Op.ofCode q.op with
  | .rotaryAdd => .rotaryAdd64 q.a q.b q.m
  | .rotarySub => .rotarySub64 q.a q.b q.m
  | .cycleAdd => .cycleAdd64 q.a q.b q.m
  | .cycleSub => .cycleSub64 q.a q.b q.m
  | .seriesAdd => .seriesAdd64 q.a q.b q.m
  | .seriesSub => .seriesSub64 q.a q.b q.m
  | .seriesMod => .seriesMod64 q.a q.b q.m
  | .reserved => .reserved64 q.a q.b q.m

/-- The decoder of the ports: every value of the four inputs is some instruction (R50). -/
def decode : Presented → Instr
  | .r8 q => q.instr8
  | .r16 q => q.instr16
  | .r32 q => q.instr32
  | .r64 q => q.instr64

/-- The request an instruction is: the values it puts on the four input ports (R42, R45). -/
def Instr.request : Instr → Presented
  | .rotaryAdd8 a b m => .r8 ⟨Op.code .rotaryAdd, a, b, m⟩
  | .rotarySub8 a b m => .r8 ⟨Op.code .rotarySub, a, b, m⟩
  | .cycleAdd8 a b m => .r8 ⟨Op.code .cycleAdd, a, b, m⟩
  | .cycleSub8 a b m => .r8 ⟨Op.code .cycleSub, a, b, m⟩
  | .seriesAdd8 a b m => .r8 ⟨Op.code .seriesAdd, a, b, m⟩
  | .seriesSub8 a b m => .r8 ⟨Op.code .seriesSub, a, b, m⟩
  | .seriesMod8 a b m => .r8 ⟨Op.code .seriesMod, a, b, m⟩
  | .reserved8 a b m => .r8 ⟨Op.code .reserved, a, b, m⟩
  | .rotaryAdd16 a b m => .r16 ⟨Op.code .rotaryAdd, a, b, m⟩
  | .rotarySub16 a b m => .r16 ⟨Op.code .rotarySub, a, b, m⟩
  | .cycleAdd16 a b m => .r16 ⟨Op.code .cycleAdd, a, b, m⟩
  | .cycleSub16 a b m => .r16 ⟨Op.code .cycleSub, a, b, m⟩
  | .seriesAdd16 a b m => .r16 ⟨Op.code .seriesAdd, a, b, m⟩
  | .seriesSub16 a b m => .r16 ⟨Op.code .seriesSub, a, b, m⟩
  | .seriesMod16 a b m => .r16 ⟨Op.code .seriesMod, a, b, m⟩
  | .reserved16 a b m => .r16 ⟨Op.code .reserved, a, b, m⟩
  | .rotaryAdd32 a b m => .r32 ⟨Op.code .rotaryAdd, a, b, m⟩
  | .rotarySub32 a b m => .r32 ⟨Op.code .rotarySub, a, b, m⟩
  | .cycleAdd32 a b m => .r32 ⟨Op.code .cycleAdd, a, b, m⟩
  | .cycleSub32 a b m => .r32 ⟨Op.code .cycleSub, a, b, m⟩
  | .seriesAdd32 a b m => .r32 ⟨Op.code .seriesAdd, a, b, m⟩
  | .seriesSub32 a b m => .r32 ⟨Op.code .seriesSub, a, b, m⟩
  | .seriesMod32 a b m => .r32 ⟨Op.code .seriesMod, a, b, m⟩
  | .reserved32 a b m => .r32 ⟨Op.code .reserved, a, b, m⟩
  | .rotaryAdd64 a b m => .r64 ⟨Op.code .rotaryAdd, a, b, m⟩
  | .rotarySub64 a b m => .r64 ⟨Op.code .rotarySub, a, b, m⟩
  | .cycleAdd64 a b m => .r64 ⟨Op.code .cycleAdd, a, b, m⟩
  | .cycleSub64 a b m => .r64 ⟨Op.code .cycleSub, a, b, m⟩
  | .seriesAdd64 a b m => .r64 ⟨Op.code .seriesAdd, a, b, m⟩
  | .seriesSub64 a b m => .r64 ⟨Op.code .seriesSub, a, b, m⟩
  | .seriesMod64 a b m => .r64 ⟨Op.code .seriesMod, a, b, m⟩
  | .reserved64 a b m => .r64 ⟨Op.code .reserved, a, b, m⟩

/-- The operation an instruction performs. -/
def Instr.op (i : Instr) : Op :=
  match i.request with
  | .r8 q => Op.ofCode q.op
  | .r16 q => Op.ofCode q.op
  | .r32 q => Op.ofCode q.op
  | .r64 q => Op.ofCode q.op

/-- Why a string of bytes is no serialised request. -/
inductive DecodeError where
  /-- It does not have the one length a request to this instance has (R51). -/
  | wrongLength
  deriving DecidableEq, Repr

/-- The request that a string of bytes holds. A request has exactly one length (R42, R51); beyond that every string is some
request (R50). -/
def requestOfBytes (wd : Width) (bs : List Byte) : Except DecodeError Presented :=
  if bs.length = reqBytes wd then .ok (Presented.ofWord wd (ofBytes bs)) else .error .wrongLength

/-- The decoder of serialised requests, total on any bytes. -/
def decodeBytes (wd : Width) (bs : List Byte) : Except DecodeError Instr :=
  match requestOfBytes wd bs with
  | .ok p => .ok (decode p)
  | .error why => .error why

/-- The bytes of a request, zero-padded at the top to whole bytes (R32). -/
def Presented.bytes (p : Presented) : List Byte := toBytes (reqBytes p.width) p.word

/-- The encoder: the serialised request word of an instruction. -/
def encode (i : Instr) : List Byte := i.request.bytes

/-! ## The opcode table's words -/

/-- The instance a table row of this many bits, or of this many bits rounded up to whole bytes, is for. -/
def widthOfTableBits (nbits : Nat) : Option Width :=
  match Config.byteCount nbits with
  | 4 => some .w8
  | 7 => some .w16
  | 13 => some .w32
  | 25 => some .w64
  | _ => none

/-- The request whose packed word, numbered as spec/opcode_table.json numbers it, is `x` (DEDUCED, log entry 5). -/
def requestOfTableWord (nbits x : Nat) : Option Presented :=
  match widthOfTableBits nbits with
  | none => none
  | some wd =>
    match requestOfBytes wd (toBytes (reqBytes wd) (x % 2 ^ nbits)) with
    | .ok p => some p
    | .error _ => none

/-- The instruction the decoder reads from a table word. -/
def decodeTableWord (nbits w : Nat) : Option Instr :=
  match requestOfTableWord nbits w with
  | some p => some (decode p)
  | none => none

end Sys2Proof
end

