-- ==== Sys2Proof/Machine/State.lean ====
section
/-! DEFINITION. Machine/State.lean: the ports of the WAU instances and the host's run, as plain data; the reasons a step can stop;
the state after reset. The WAU has no stored state (spec 10_state.md R20 to R28): what stands here is what is on its ports, and
the run of the host that drives them (70_reset_and_hazards.md R133, 60_exceptions.md R121; DESIGN CHOICE, log entries 1 and 3). -/

namespace Sys2Proof.Machine

/-- The four input ports of an instance (R15). `none`: the port is undriven (R125). -/
structure InPorts (w : Nat) where
  op : Option (BitVec 3)
  a : Option (BitVec w)
  b : Option (BitVec w)
  m : Option (BitVec w)
  deriving DecidableEq, Repr

/-- One WAU instance: what is on its input ports, and the response on its output ports (R15, R18). `out` is `none` while the
outputs are unspecified, which is from power-up until all four inputs are driven and settled: R125 gives them no value. -/
structure Wau (w : Nat) where
  inp : InPorts w
  out : Option (Response w)
  deriving DecidableEq, Repr

/-- The host's run (R133): the requests it has yet to present, first to last, and the responses it has sampled, oldest first.
`$n` names the n-th response (R52). -/
structure Run where
  script : List Entry
  responses : List Sampled
  deriving DecidableEq, Repr

/-- The machine: one instance of each operand width the spec names, which share nothing (R6, R29), and the host's run. -/
structure State where
  u8 : Wau 8
  u16 : Wau 16
  u32 : Wau 32
  u64 : Wau 64
  run : Run
  deriving DecidableEq, Repr

/-- Why the machine stops. A contract violation is NOT here: it is a response, delivered on the output ports, after which the
machine goes on (R110, R111, R133). -/
inductive Fault where
  /-- Raised by the host's sampling (`State.sample`) when the outputs it would sample are unspecified (R125). Safe: R125 gives
  them no value. No step raises it, since a step samples only after it has evaluated a request. -/
  | unspecifiedOutputs
  deriving DecidableEq, Repr

/-- Why a step has no meaning. All but the first are the host's own rejection of a script entry, before any port is driven. -/
inductive Refusal where
  /-- An instruction that has no meaning in this model, named by its mnemonic. Raised by an arm of `exec` only; no arm does. -/
  | notModelled (mnemonic : String)
  /-- Raised when a script's `$n` names no response sampled so far (R52). Safe: the run stops. -/
  | noSuchResponse (n : Nat)
  /-- Raised when a script's `$n` names a response that was a fault, which has no result (R121, R128, 95_test_vectors.md PG4:
  "the host refuses it"). Safe: the run stops. -/
  | faultedResponse (n : Nat)
  /-- Raised when a literal or a substituted result does not fit the W bits of the instance (R52, R127). Safe: the run stops. -/
  | valueTooWide (v : Nat)
  deriving DecidableEq, Repr

/-- No port driven (R125). -/
def InPorts.undriven (w : Nat) : InPorts w := ⟨none, none, none, none⟩

/-- An instance before any request is present (R125, R27). -/
def Wau.idle (w : Nat) : Wau w := ⟨InPorts.undriven w, none⟩

/-- The machine at the start. The WAU has no reset and no stored value (R27, R124): no input is driven yet, so no output has a
value (R125). The host has no request loaded, an empty result list and no fault recorded (95_test_vectors.md section 7). -/
def State.reset : State := ⟨Wau.idle 8, Wau.idle 16, Wau.idle 32, Wau.idle 64, ⟨[], []⟩⟩

end Sys2Proof.Machine
end

