-- ==== Sys2Proof/Machine/Flags.lean ====
section
/-! DEFINITION. Machine/Flags.lean: the status outputs `fault`, `cause` and `pv`, how a response appears on the output ports, and
the packed response word RSP and its bytes (spec 10_state.md R17, R18, R24; 20_memory.md R32; 30_encoding.md R44, R55;
60_exceptions.md R104, R112). -/

namespace Sys2Proof

/-- The precondition on `a` of SERIES_ADD and SERIES_SUB is violated: `a` lies outside [1, limit] (R112). -/
def seriesPv {w : Nat} (a limit : BitVec w) : Bool := decide (a = 0) || decide (limit < a)

/-- The `cause` code (R104). -/
def Cause.code : Cause → BitVec 2
  | .zeroModulus => 0b01
  | .illegalOp => 0b10

/-- The four output ports (R15). -/
structure OutPorts (w : Nat) where
  r : BitVec w
  fault : BitVec 1
  cause : BitVec 2
  pv : BitVec 1
  deriving DecidableEq, Repr

/-- How a response appears on the output ports (R18). The zero on `r` under a fault is no result: nothing in the model reads
it as one (R121). -/
def Response.ports {w : Nat} : Response w → OutPorts w
  | .ok r pv => ⟨r, 0, 0b00, BitVec.ofBool pv⟩
  | .fault cause => ⟨0, 1, cause.code, 0⟩

/-- The result of a response; a fault has none (R121). -/
def Response.result? {w : Nat} : Response w → Option (BitVec w)
  | .ok r _ => some r
  | .fault _ => none

/-- The fault cause of a response. -/
def Response.cause? {w : Nat} : Response w → Option Cause
  | .ok _ _ => none
  | .fault c => some c

/-- RSP = {pv, cause, fault, r}, `r` in the low bits (R44). -/
def OutPorts.word {w : Nat} (o : OutPorts w) : BitVec (Config.rspWidth w) :=
  BitVec.cast (by simp only [Config.rspWidth]; omega) (o.pv ++ o.cause ++ o.fault ++ o.r)

/-- The packed response word. -/
def Response.word {w : Nat} (p : Response w) : BitVec (Config.rspWidth w) := p.ports.word

/-- The fields of a packed response word: `r` at [W−1:0], `fault` at [W], `cause` at [W+2:W+1], `pv` at [W+3] (R44). -/
def OutPorts.ofWord {w : Nat} (x : BitVec (Config.rspWidth w)) : OutPorts w where
  r := x.extractLsb' 0 w
  fault := x.extractLsb' w 1
  cause := x.extractLsb' (w + 1) 2
  pv := x.extractLsb' (w + 3) 1

/-- The response that is on the output ports. A pattern the WAU never produces is no response (R55; 93_implementation_defined.md
U8: a decoder of RSP words "should refuse it"): with `fault` = 0 also `pv` = 1 beside `r` = 0, since `pv` is raised only by
SERIES_ADD and SERIES_SUB, whose results lie in [1, limit] (R17). -/
def OutPorts.response? {w : Nat} (o : OutPorts w) : Option (Response w) :=
  if o.fault = 0 then
    if o.cause = 0 then
      if o.pv = 1 ∧ o.r = 0 then none else some (.ok o.r (o.pv == 1))
    else none
  else if o.r = 0 ∧ o.pv = 0 then
    if o.cause = 0b01 then some (.fault .zeroModulus)
    else if o.cause = 0b10 then some (.fault .illegalOp)
    else none
  else none

/-- The response a packed response word holds, if it holds one. -/
def Response.ofWord {w : Nat} (x : BitVec (Config.rspWidth w)) : Option (Response w) :=
  (OutPorts.ofWord x).response?

/-! ## The packed response word as bytes (R32) -/

/-- The instance a response was sampled from. -/
def Sampled.width : Sampled → Width
  | .r8 _ => .w8
  | .r16 _ => .w16
  | .r32 _ => .w32
  | .r64 _ => .w64

/-- The packed response word as a number. -/
def Sampled.word : Sampled → Nat
  | .r8 p => p.word.toNat
  | .r16 p => p.word.toNat
  | .r32 p => p.word.toNat
  | .r64 p => p.word.toNat

/-- The response of the instance of width `wd` whose packed word is `x`, taken modulo 2^RSPW: bits above RSPW are padding,
ignored when read (R32). -/
def Sampled.ofWord (wd : Width) (x : Nat) : Option Sampled :=
  match wd with
  | .w8 => (Response.ofWord (BitVec.ofNat _ x)).map .r8
  | .w16 => (Response.ofWord (BitVec.ofNat _ x)).map .r16
  | .w32 => (Response.ofWord (BitVec.ofNat _ x)).map .r32
  | .w64 => (Response.ofWord (BitVec.ofNat _ x)).map .r64

/-- How many bytes a serialised response of the instance of this width has: 2, 3, 5 or 9 (R44). -/
def rspBytes (wd : Width) : Nat := Config.byteCount (Config.rspWidth wd.bits)

/-- The bytes of a response, zero-padded at the top to whole bytes, least significant first (R32). -/
def Sampled.bytes (y : Sampled) : List Byte := toBytes (rspBytes y.width) y.word

/-- Why a string of bytes is no serialised response. -/
inductive ResponseError where
  /-- It does not have the one length a response of this instance has (R44). -/
  | wrongLength
  /-- Its word is one the WAU never produces (R55). -/
  | neverProduced
  deriving DecidableEq, Repr

/-- The response that a string of bytes holds. -/
def responseOfBytes (wd : Width) (bs : List Byte) : Except ResponseError Sampled :=
  if bs.length = rspBytes wd then
    match Sampled.ofWord wd (ofBytes bs) with
    | some y => .ok y
    | none => .error .neverProduced
  else .error .wrongLength

/-- The fault cause of a sampled response. -/
def Sampled.cause? : Sampled → Option Cause
  | .r8 p => p.cause?
  | .r16 p => p.cause?
  | .r32 p => p.cause?
  | .r64 p => p.cause?

end Sys2Proof

namespace Sys2Proof.Machine

/-- The values on an instance's output ports, where they are specified (R18, R125). -/
def Wau.outPorts {w : Nat} (u : Wau w) : Option (OutPorts w) := u.out.map Response.ports

/-- The faults the host's run has met, in order (R121). -/
def State.faultRecord (s : State) : List Cause := s.run.responses.filterMap Sampled.cause?

/-- The host's fault mark (R121): set once any response of the run was a fault. -/
def State.faultMark (s : State) : Bool := !s.faultRecord.isEmpty

end Sys2Proof.Machine
end

