-- ==== Sys2Proof/Machine/Operands.lean ====
section
/-! DEFINITION. Machine/Operands.lean: how an operand reaches the datapath (spec 40_datapath.md R60, R64, R71), how a request
reaches the ports (10_state.md R15), and how the host turns a script entry into a request (30_encoding.md R52). -/

namespace Sys2Proof

/-- The result a sampled response carries. A fault carries none (R121). The advisory bit is not looked at: R128 leaves what a
host does with `pv` = 1 to the host, and this one uses such a result like any other (DESIGN CHOICE, log entry 15). -/
def Sampled.result? : Sampled → Option Nat
  | .r8 (.ok r _) => some r.toNat
  | .r16 (.ok r _) => some r.toNat
  | .r32 (.ok r _) => some r.toNat
  | .r64 (.ok r _) => some r.toNat
  | .r8 (.fault _) => none
  | .r16 (.fault _) => none
  | .r32 (.fault _) => none
  | .r64 (.fault _) => none

/-- The script entry that presents a request as it stands: `raw.W op, a, b, m` with literals (R52). -/
def Request.entry {w : Nat} (wd : Width) (q : Request w) : Entry :=
  ⟨wd, q.op, .lit q.a.toNat, .lit q.b.toNat, .lit q.m.toNat⟩

/-- The script entry that presents a request to its instance. -/
def Presented.entry : Presented → Entry
  | .r8 q => q.entry .w8
  | .r16 q => q.entry .w16
  | .r32 q => q.entry .w32
  | .r64 q => q.entry .w64

end Sys2Proof

namespace Sys2Proof.Machine

/-! ## Into and out of the datapath -/

/-- The width promoter (R60): zero extension of an operand to the accumulator's `n` bits. -/
def promote (n : Nat) {w : Nat} (v : BitVec w) : BitVec n := v.setWidth n

/-- The internal modulus of the rotary family (R64): the constant 2^W, in W + 1 bits. The `m` port is not read. -/
def nativeModulus (w : Nat) : BitVec (w + 1) := BitVec.ofNat (w + 1) (2 ^ w)

/-- The internal modulus of the cycle and series families (R64): the `m` port, zero-extended to W + 1 bits. -/
def portModulus {w : Nat} (m : BitVec w) : BitVec (w + 1) := m.setWidth (w + 1)

/-- The final width (R71): an accumulator value driven on the W-bit port `r`. -/
def driveResult (w : Nat) {n : Nat} (v : BitVec n) : BitVec w := v.setWidth w

/-! ## Requests on the ports -/

/-- The input ports while the host drives a request: all four are driven, those the operation does not read too (R127). -/
def InPorts.ofRequest {w : Nat} (q : Request w) : InPorts w := ⟨some q.op, some q.a, some q.b, some q.m⟩

/-- The request on the input ports: there is one when all four are driven (R15, R125). -/
def InPorts.request? {w : Nat} (p : InPorts w) : Option (Request w) :=
  match p.op, p.a, p.b, p.m with
  | some op, some a, some b, some m => some ⟨op, a, b, m⟩
  | _, _, _, _ => none

/-! ## Script entries -/

/-- The `n`-th response, counted from 1. -/
def nthResponse (rs : List Sampled) : Nat → Option Sampled
  | 0 => none
  | n + 1 => rs[n]?

/-- A value for a W-bit port. One that does not fit is the host's to reject, never truncated (R52, R127). -/
def fitPort (w v : Nat) : Except Refusal (BitVec w) :=
  if v < 2 ^ w then .ok (BitVec.ofNat w v) else .error (.valueTooWide v)

/-- What the host drives for an operand: a literal as it stands, or for `$n` the result of the n-th response (R52, R128), be
its `pv` 0 or 1 (DESIGN CHOICE, log entry 15). -/
def operandValue (w : Nat) (rs : List Sampled) : Operand → Except Refusal (BitVec w)
  | .lit v => fitPort w v
  | .result n =>
    match nthResponse rs n with
    | none => .error (.noSuchResponse n)
    | some p =>
      match p.result? with
      | none => .error (.faultedResponse n)
      | some v => fitPort w v

/-- The request a script entry is, for a W-bit instance, after substitution. Of several operands the host must reject, the
first of `a`, `b`, `m` is the one reported (DESIGN CHOICE, log entry 7). -/
def resolveAt (w : Nat) (e : Entry) (rs : List Sampled) : Except Refusal (Request w) :=
  match operandValue w rs e.a, operandValue w rs e.b, operandValue w rs e.m with
  | .ok a, .ok b, .ok m => .ok ⟨e.op, a, b, m⟩
  | .error why, _, _ => .error why
  | .ok _, .error why, _ => .error why
  | .ok _, .ok _, .error why => .error why

/-- The request a script entry is, presented to the instance it names. -/
def resolve (e : Entry) (rs : List Sampled) : Except Refusal Presented :=
  match e.width with
  | .w8 => (resolveAt 8 e rs).map .r8
  | .w16 => (resolveAt 16 e rs).map .r16
  | .w32 => (resolveAt 32 e rs).map .r32
  | .w64 => (resolveAt 64 e rs).map .r64

end Sys2Proof.Machine
end

