-- ==== Sys2Proof/Machine/Ops.lean ====
section
/-! DEFINITION. Machine/Ops.lean: the shared datapath (spec 40_datapath.md R61 to R68), raising a fault (00_scope.md R13,
60_exceptions.md R110), delivering a response on an instance's ports (10_state.md R18), and the host's sampling of it
(70_reset_and_hazards.md R128, R133). There is no return from a fault and nothing to restore (R111). -/

namespace Sys2Proof.Machine

/-! ## The datapath, with an accumulator of `n` bits -/

/-- Accumulator addition (R61). -/
def accAdd {n : Nat} (x y : BitVec n) : BitVec n := x + y

/-- Accumulator comparison x ≥ y (R62). -/
def accGe {n : Nat} (x y : BitVec n) : Bool := decide (y ≤ x)

/-- Accumulator subtraction, used only where x ≥ y (R62). -/
def accSub {n : Nat} (x y : BitVec n) : BitVec n := x - y

/-- The modulo reducer (R63); never evaluated with M = 0 (R65). -/
def reduce {n : Nat} (v M : BitVec n) : BitVec n := v % M

/-- The modular adder (R66). The second operand is reduced before the addition, the first is not. -/
def modAdd (n : Nat) {w : Nat} (x y : BitVec w) (M : BitVec (w + 1)) : BitVec n :=
  reduce (accAdd (promote n x) (reduce (promote n y) (promote n M))) (promote n M)

/-- The modular subtractor (R67). -/
def modSub (n : Nat) {w : Nat} (x y : BitVec w) (M : BitVec (w + 1)) : BitVec n :=
  let ym := reduce (promote n y) (promote n M)
  if accGe (promote n x) ym then
    reduce (accSub (promote n x) ym) (promote n M)
  else
    accSub (promote n M) (accSub ym (promote n x))

/-- The series fix-up (R68): the residue 0 is renamed `L`. -/
def seriesFix {n : Nat} (q L : BitVec n) : BitVec n := if q = 0 then L else q

/-! ## Responses -/

/-- `raise Fault(cause)` (R13): the evaluation ends with a fault response and no result. This is all there is to taking a fault:
nothing is saved, no mode changes, control goes nowhere (R107, R110). -/
def raiseFault {w : Nat} (c : Cause) : Response w := .fault c

/-- Zero-modulus detection (R65): an operation that reads `m` ends with a ZERO_MODULUS fault where `m` is 0 (R105), and answers
`p` otherwise. -/
def unlessZeroModulus {w : Nat} (m : BitVec w) (p : Response w) : Response w :=
  if m = 0 then raiseFault .zeroModulus else p

/-- An instance with a request on its inputs and a response on its outputs, once they have settled. -/
def Wau.present {w : Nat} (q : Request w) (p : Response w) : Wau w := ⟨InPorts.ofRequest q, some p⟩

/-- The 8-bit instance is given a request and answers it. -/
def State.answer8 (s : State) (q : Request 8) (p : Response 8) : State := { s with u8 := Wau.present q p }

/-- The 16-bit instance is given a request and answers it. -/
def State.answer16 (s : State) (q : Request 16) (p : Response 16) : State := { s with u16 := Wau.present q p }

/-- The 32-bit instance is given a request and answers it. -/
def State.answer32 (s : State) (q : Request 32) (p : Response 32) : State := { s with u32 := Wau.present q p }

/-- The 64-bit instance is given a request and answers it. -/
def State.answer64 (s : State) (q : Request 64) (p : Response 64) : State := { s with u64 := Wau.present q p }

/-! ## The host -/

/-- The response on the outputs of the instance of a width. -/
def State.output (s : State) : Width → Option Sampled
  | .w8 => s.u8.out.map .r8
  | .w16 => s.u16.out.map .r16
  | .w32 => s.u32.out.map .r32
  | .w64 => s.u64.out.map .r64

/-- The host appends a response to those of its run (R133). -/
def State.record (s : State) (p : Sampled) : State :=
  { s with run := { s.run with responses := s.run.responses ++ [p] } }

/-- The host's script is replaced by `es`. -/
def State.withScript (s : State) (es : List Entry) : State :=
  { s with run := { s.run with script := es } }

/-- The host samples the outputs of an instance (R128, R133). Unspecified outputs are no response (R125). -/
def State.sample (s : State) (wd : Width) : Host.Outcome State Fault Refusal :=
  match s.output wd with
  | some p => .next (s.record p)
  | none => .fault .unspecifiedOutputs

end Sys2Proof.Machine
end

