-- ==== Sys2Proof/Machine/Cycle.lean ====
section
/-! DEFINITION. Machine/Cycle.lean: CYCLE_ADD and CYCLE_SUB, whose `m` is the base (spec 42_cycle.md R80, R81). -/

namespace Sys2Proof.Machine

/-- CYCLE_ADD: `ModAdd(a, b, base)`, a ZERO_MODULUS fault where base is 0 (R80, R105). -/
def cycleAdd {w : Nat} (a b base : BitVec w) : Response w :=
  unlessZeroModulus base
    (.ok (driveResult w (modAdd (Config.accWidth w) a b (portModulus base))) false)

/-- CYCLE_SUB: `ModSub(a, b, base)`, a ZERO_MODULUS fault where base is 0 (R81, R105). -/
def cycleSub {w : Nat} (a b base : BitVec w) : Response w :=
  unlessZeroModulus base
    (.ok (driveResult w (modSub (Config.accWidth w) a b (portModulus base))) false)

/-- `cycle_add.8` (R80). -/
def execCycleAdd8 (a b m : BitVec 8) (s : State) : Host.Outcome State Fault Refusal :=
  .next (s.answer8 ⟨Op.code .cycleAdd, a, b, m⟩ (cycleAdd a b m))

/-- `cycle_add.16` (R80). -/
def execCycleAdd16 (a b m : BitVec 16) (s : State) : Host.Outcome State Fault Refusal :=
  .next (s.answer16 ⟨Op.code .cycleAdd, a, b, m⟩ (cycleAdd a b m))

/-- `cycle_add.32` (R80). -/
def execCycleAdd32 (a b m : BitVec 32) (s : State) : Host.Outcome State Fault Refusal :=
  .next (s.answer32 ⟨Op.code .cycleAdd, a, b, m⟩ (cycleAdd a b m))

/-- `cycle_add.64` (R80). -/
def execCycleAdd64 (a b m : BitVec 64) (s : State) : Host.Outcome State Fault Refusal :=
  .next (s.answer64 ⟨Op.code .cycleAdd, a, b, m⟩ (cycleAdd a b m))

/-- `cycle_sub.8` (R81). -/
def execCycleSub8 (a b m : BitVec 8) (s : State) : Host.Outcome State Fault Refusal :=
  .next (s.answer8 ⟨Op.code .cycleSub, a, b, m⟩ (cycleSub a b m))

/-- `cycle_sub.16` (R81). -/
def execCycleSub16 (a b m : BitVec 16) (s : State) : Host.Outcome State Fault Refusal :=
  .next (s.answer16 ⟨Op.code .cycleSub, a, b, m⟩ (cycleSub a b m))

/-- `cycle_sub.32` (R81). -/
def execCycleSub32 (a b m : BitVec 32) (s : State) : Host.Outcome State Fault Refusal :=
  .next (s.answer32 ⟨Op.code .cycleSub, a, b, m⟩ (cycleSub a b m))

/-- `cycle_sub.64` (R81). -/
def execCycleSub64 (a b m : BitVec 64) (s : State) : Host.Outcome State Fault Refusal :=
  .next (s.answer64 ⟨Op.code .cycleSub, a, b, m⟩ (cycleSub a b m))

end Sys2Proof.Machine
end

