-- ==== Sys2Proof/Machine/Reserved.lean ====
section
/-! DEFINITION. Machine/Reserved.lean: the reserved operation code (spec 30_encoding.md R49, 60_exceptions.md R106). A request with
it takes the ILLEGAL_OP fault, which is delivered on the output ports like every response (R110). -/

namespace Sys2Proof.Machine

/-- The reserved code: `Fault{ILLEGAL_OP}`, whatever the operands hold, a zero `m` too (R106, R109). -/
def reservedOp {w : Nat} : Response w := raiseFault .illegalOp

/-- `reserved.8` (R106). -/
def execReserved8 (a b m : BitVec 8) (s : State) : Host.Outcome State Fault Refusal :=
  .next (s.answer8 ⟨Op.code .reserved, a, b, m⟩ reservedOp)

/-- `reserved.16` (R106). -/
def execReserved16 (a b m : BitVec 16) (s : State) : Host.Outcome State Fault Refusal :=
  .next (s.answer16 ⟨Op.code .reserved, a, b, m⟩ reservedOp)

/-- `reserved.32` (R106). -/
def execReserved32 (a b m : BitVec 32) (s : State) : Host.Outcome State Fault Refusal :=
  .next (s.answer32 ⟨Op.code .reserved, a, b, m⟩ reservedOp)

/-- `reserved.64` (R106). -/
def execReserved64 (a b m : BitVec 64) (s : State) : Host.Outcome State Fault Refusal :=
  .next (s.answer64 ⟨Op.code .reserved, a, b, m⟩ reservedOp)

end Sys2Proof.Machine
end

