-- ==== Sys2Proof/Machine/Rotary.lean ====
section
/-! DEFINITION. Machine/Rotary.lean: ROTARY_ADD and ROTARY_SUB (spec 41_rotary.md R72, R73). The `m` port is not read (R48) and no
fault is possible. -/

namespace Sys2Proof.Machine

/-- ROTARY_ADD: `ModAdd(a, b, 2^W)` (R72). -/
def rotaryAdd {w : Nat} (a b : BitVec w) : Response w :=
  .ok (driveResult w (modAdd (Config.accWidth w) a b (nativeModulus w))) false

/-- ROTARY_SUB: `ModSub(a, b, 2^W)` (R73). -/
def rotarySub {w : Nat} (a b : BitVec w) : Response w :=
  .ok (driveResult w (modSub (Config.accWidth w) a b (nativeModulus w))) false

/-- `rotary_add.8` (R72). -/
def execRotaryAdd8 (a b m : BitVec 8) (s : State) : Host.Outcome State Fault Refusal :=
  .next (s.answer8 ⟨Op.code .rotaryAdd, a, b, m⟩ (rotaryAdd a b))

/-- `rotary_add.16` (R72). -/
def execRotaryAdd16 (a b m : BitVec 16) (s : State) : Host.Outcome State Fault Refusal :=
  .next (s.answer16 ⟨Op.code .rotaryAdd, a, b, m⟩ (rotaryAdd a b))

/-- `rotary_add.32` (R72). -/
def execRotaryAdd32 (a b m : BitVec 32) (s : State) : Host.Outcome State Fault Refusal :=
  .next (s.answer32 ⟨Op.code .rotaryAdd, a, b, m⟩ (rotaryAdd a b))

/-- `rotary_add.64` (R72). -/
def execRotaryAdd64 (a b m : BitVec 64) (s : State) : Host.Outcome State Fault Refusal :=
  .next (s.answer64 ⟨Op.code .rotaryAdd, a, b, m⟩ (rotaryAdd a b))

/-- `rotary_sub.8` (R73). -/
def execRotarySub8 (a b m : BitVec 8) (s : State) : Host.Outcome State Fault Refusal :=
  .next (s.answer8 ⟨Op.code .rotarySub, a, b, m⟩ (rotarySub a b))

/-- `rotary_sub.16` (R73). -/
def execRotarySub16 (a b m : BitVec 16) (s : State) : Host.Outcome State Fault Refusal :=
  .next (s.answer16 ⟨Op.code .rotarySub, a, b, m⟩ (rotarySub a b))

/-- `rotary_sub.32` (R73). -/
def execRotarySub32 (a b m : BitVec 32) (s : State) : Host.Outcome State Fault Refusal :=
  .next (s.answer32 ⟨Op.code .rotarySub, a, b, m⟩ (rotarySub a b))

/-- `rotary_sub.64` (R73). -/
def execRotarySub64 (a b m : BitVec 64) (s : State) : Host.Outcome State Fault Refusal :=
  .next (s.answer64 ⟨Op.code .rotarySub, a, b, m⟩ (rotarySub a b))

end Sys2Proof.Machine
end

