-- ==== Sys2Proof/Machine/Series.lean ====
section
/-! DEFINITION. Machine/Series.lean: SERIES_ADD, SERIES_SUB and SERIES_MOD, whose `m` is the limit (spec 43_series.md R90, R91, R92). -/

namespace Sys2Proof.Machine

/-- SERIES_ADD: `SeriesFix(ModAdd(a, b, L), L)`, a ZERO_MODULUS fault where the limit is 0; `pv` reports `a` outside [1, limit]
and changes nothing else (R90, R97, R105, R112). -/
def seriesAdd {w : Nat} (a b limit : BitVec w) : Response w :=
  unlessZeroModulus limit
    (.ok (driveResult w (seriesFix (modAdd (Config.accWidth w) a b (portModulus limit))
        (promote (Config.accWidth w) (portModulus limit))))
      (seriesPv a limit))

/-- SERIES_SUB: `SeriesFix(ModSub(a, b, L), L)`, faults and `pv` as SERIES_ADD (R91). -/
def seriesSub {w : Nat} (a b limit : BitVec w) : Response w :=
  unlessZeroModulus limit
    (.ok (driveResult w (seriesFix (modSub (Config.accWidth w) a b (portModulus limit))
        (promote (Config.accWidth w) (portModulus limit))))
      (seriesPv a limit))

/-- SERIES_MOD: `SeriesFix(Reduce(Promote(a), L), L)`, a ZERO_MODULUS fault where the limit is 0; `b` is not read and `pv` is
0 (R92). -/
def seriesMod {w : Nat} (a limit : BitVec w) : Response w :=
  unlessZeroModulus limit
    (.ok (driveResult w (seriesFix
        (reduce (promote (Config.accWidth w) a) (promote (Config.accWidth w) (portModulus limit)))
        (promote (Config.accWidth w) (portModulus limit))))
      false)

/-- `series_add.8` (R90). -/
def execSeriesAdd8 (a b m : BitVec 8) (s : State) : Host.Outcome State Fault Refusal :=
  .next (s.answer8 ⟨Op.code .seriesAdd, a, b, m⟩ (seriesAdd a b m))

/-- `series_add.16` (R90). -/
def execSeriesAdd16 (a b m : BitVec 16) (s : State) : Host.Outcome State Fault Refusal :=
  .next (s.answer16 ⟨Op.code .seriesAdd, a, b, m⟩ (seriesAdd a b m))

/-- `series_add.32` (R90). -/
def execSeriesAdd32 (a b m : BitVec 32) (s : State) : Host.Outcome State Fault Refusal :=
  .next (s.answer32 ⟨Op.code .seriesAdd, a, b, m⟩ (seriesAdd a b m))

/-- `series_add.64` (R90). -/
def execSeriesAdd64 (a b m : BitVec 64) (s : State) : Host.Outcome State Fault Refusal :=
  .next (s.answer64 ⟨Op.code .seriesAdd, a, b, m⟩ (seriesAdd a b m))

/-- `series_sub.8` (R91). -/
def execSeriesSub8 (a b m : BitVec 8) (s : State) : Host.Outcome State Fault Refusal :=
  .next (s.answer8 ⟨Op.code .seriesSub, a, b, m⟩ (seriesSub a b m))

/-- `series_sub.16` (R91). -/
def execSeriesSub16 (a b m : BitVec 16) (s : State) : Host.Outcome State Fault Refusal :=
  .next (s.answer16 ⟨Op.code .seriesSub, a, b, m⟩ (seriesSub a b m))

/-- `series_sub.32` (R91). -/
def execSeriesSub32 (a b m : BitVec 32) (s : State) : Host.Outcome State Fault Refusal :=
  .next (s.answer32 ⟨Op.code .seriesSub, a, b, m⟩ (seriesSub a b m))

/-- `series_sub.64` (R91). -/
def execSeriesSub64 (a b m : BitVec 64) (s : State) : Host.Outcome State Fault Refusal :=
  .next (s.answer64 ⟨Op.code .seriesSub, a, b, m⟩ (seriesSub a b m))

/-- `series_mod.8` (R92). -/
def execSeriesMod8 (a b m : BitVec 8) (s : State) : Host.Outcome State Fault Refusal :=
  .next (s.answer8 ⟨Op.code .seriesMod, a, b, m⟩ (seriesMod a m))

/-- `series_mod.16` (R92). -/
def execSeriesMod16 (a b m : BitVec 16) (s : State) : Host.Outcome State Fault Refusal :=
  .next (s.answer16 ⟨Op.code .seriesMod, a, b, m⟩ (seriesMod a m))

/-- `series_mod.32` (R92). -/
def execSeriesMod32 (a b m : BitVec 32) (s : State) : Host.Outcome State Fault Refusal :=
  .next (s.answer32 ⟨Op.code .seriesMod, a, b, m⟩ (seriesMod a m))

/-- `series_mod.64` (R92). -/
def execSeriesMod64 (a b m : BitVec 64) (s : State) : Host.Outcome State Fault Refusal :=
  .next (s.answer64 ⟨Op.code .seriesMod, a, b, m⟩ (seriesMod a m))

end Sys2Proof.Machine
end

