-- ==== Sys2Proof/Machine/Dispatch.lean ====
section
/-! DEFINITION. Machine/Dispatch.lean: one arm per instruction, each a call of its meaning. -/

namespace Sys2Proof.Machine

def exec (i : Instr) (s : State) : Host.Outcome State Fault Refusal :=
  match i with
  | .rotaryAdd8 a b m => Sys2Proof.Machine.execRotaryAdd8 a b m s
  | .rotarySub8 a b m => Sys2Proof.Machine.execRotarySub8 a b m s
  | .cycleAdd8 a b m => Sys2Proof.Machine.execCycleAdd8 a b m s
  | .cycleSub8 a b m => Sys2Proof.Machine.execCycleSub8 a b m s
  | .seriesAdd8 a b m => Sys2Proof.Machine.execSeriesAdd8 a b m s
  | .seriesSub8 a b m => Sys2Proof.Machine.execSeriesSub8 a b m s
  | .seriesMod8 a b m => Sys2Proof.Machine.execSeriesMod8 a b m s
  | .reserved8 a b m => Sys2Proof.Machine.execReserved8 a b m s
  | .rotaryAdd16 a b m => Sys2Proof.Machine.execRotaryAdd16 a b m s
  | .rotarySub16 a b m => Sys2Proof.Machine.execRotarySub16 a b m s
  | .cycleAdd16 a b m => Sys2Proof.Machine.execCycleAdd16 a b m s
  | .cycleSub16 a b m => Sys2Proof.Machine.execCycleSub16 a b m s
  | .seriesAdd16 a b m => Sys2Proof.Machine.execSeriesAdd16 a b m s
  | .seriesSub16 a b m => Sys2Proof.Machine.execSeriesSub16 a b m s
  | .seriesMod16 a b m => Sys2Proof.Machine.execSeriesMod16 a b m s
  | .reserved16 a b m => Sys2Proof.Machine.execReserved16 a b m s
  | .rotaryAdd32 a b m => Sys2Proof.Machine.execRotaryAdd32 a b m s
  | .rotarySub32 a b m => Sys2Proof.Machine.execRotarySub32 a b m s
  | .cycleAdd32 a b m => Sys2Proof.Machine.execCycleAdd32 a b m s
  | .cycleSub32 a b m => Sys2Proof.Machine.execCycleSub32 a b m s
  | .seriesAdd32 a b m => Sys2Proof.Machine.execSeriesAdd32 a b m s
  | .seriesSub32 a b m => Sys2Proof.Machine.execSeriesSub32 a b m s
  | .seriesMod32 a b m => Sys2Proof.Machine.execSeriesMod32 a b m s
  | .reserved32 a b m => Sys2Proof.Machine.execReserved32 a b m s
  | .rotaryAdd64 a b m => Sys2Proof.Machine.execRotaryAdd64 a b m s
  | .rotarySub64 a b m => Sys2Proof.Machine.execRotarySub64 a b m s
  | .cycleAdd64 a b m => Sys2Proof.Machine.execCycleAdd64 a b m s
  | .cycleSub64 a b m => Sys2Proof.Machine.execCycleSub64 a b m s
  | .seriesAdd64 a b m => Sys2Proof.Machine.execSeriesAdd64 a b m s
  | .seriesSub64 a b m => Sys2Proof.Machine.execSeriesSub64 a b m s
  | .seriesMod64 a b m => Sys2Proof.Machine.execSeriesMod64 a b m s
  | .reserved64 a b m => Sys2Proof.Machine.execReserved64 a b m s

end Sys2Proof.Machine
end

