-- ==== Sys2Proof/Machine/Evaluate.lean ====
section
/-! DEFINITION. Machine/Evaluate.lean: `Exec_W`, the one total function from a request to a response (spec 00_scope.md R12, R28),
and the settling of an instance's outputs to that function of its inputs (10_state.md R19, 70_reset_and_hazards.md R125, R130). -/

namespace Sys2Proof.Machine

/-- `Exec_W : Request_W -> Response_W` (R12). It takes no state and gives none (R28). -/
def evaluate {w : Nat} (q : Request w) : Response w :=
  match Op.ofCode q.op with
  | .rotaryAdd => rotaryAdd q.a q.b
  | .rotarySub => rotarySub q.a q.b
  | .cycleAdd => cycleAdd q.a q.b q.m
  | .cycleSub => cycleSub q.a q.b q.m
  | .seriesAdd => seriesAdd q.a q.b q.m
  | .seriesSub => seriesSub q.a q.b q.m
  | .seriesMod => seriesMod q.a q.m
  | .reserved => reservedOp

/-- `Exec_W` of a request to the instance it is presented to. -/
def answerOf : Presented → Sampled
  | .r8 q => .r8 (evaluate q)
  | .r16 q => .r16 (evaluate q)
  | .r32 q => .r32 (evaluate q)
  | .r64 q => .r64 (evaluate q)

/-- The state once a request is on the inputs of its instance and the instance has answered it; nothing else changes. -/
def State.evaluated (s : State) : Presented → State
  | .r8 q => s.answer8 q (evaluate q)
  | .r16 q => s.answer16 q (evaluate q)
  | .r32 q => s.answer32 q (evaluate q)
  | .r64 q => s.answer64 q (evaluate q)

/-- The outputs settle to `Exec_W` of the request on the inputs; while an input is undriven they are unspecified (R19, R125). -/
def Wau.settle {w : Nat} (u : Wau w) : Wau w := { u with out := u.inp.request?.map evaluate }

/-- Every instance's outputs settle. This is all that happens while the host presents no new request: the WAU answers whatever
is on its inputs for as long as it is powered (R133; DESIGN CHOICE, log entry 4). -/
def State.settle (s : State) : State :=
  { s with u8 := s.u8.settle, u16 := s.u16.settle, u32 := s.u32.settle, u64 := s.u64.settle }

/-- What the host does next: nothing, or present the head of its script, which it turns into a request first. -/
inductive HostMove where
  | idle
  | present (p : Presented) (rest : List Entry)
  | reject (why : Refusal)
  deriving DecidableEq, Repr

/-- The host's next move (R52, R127, R133). -/
def State.hostMove (s : State) : HostMove :=
  match s.run.script with
  | [] => .idle
  | e :: rest =>
    match resolve e s.run.responses with
    | .ok p => .present p rest
    | .error why => .reject why

/-- The host puts a request at the head of its script (DEDUCED, log entry 5). -/
def State.load (s : State) (p : Presented) : State := s.withScript (p.entry :: s.run.script)

end Sys2Proof.Machine
end

