-- ==== Sys2Proof/Machine/Step.lean ====
section
/-! DEFINITION. Machine/Step.lean: one step of the machine and its host. -/

namespace Sys2Proof.Machine

/-- One step. With a request next in the script: the host presents it, the instance evaluates it, and the host samples the
response, as one atomic step (spec 70_reset_and_hazards.md R130, R133). With none: the outputs settle to their inputs. -/
def step (s : State) : Host.Outcome State Fault Refusal :=
  match s.hostMove with
  | .idle => .next s.settle
  | .reject why => .refused why
  | .present p rest =>
    match exec (decode p) (s.withScript rest) with
    | .next t => t.sample p.width
    | .fault f => .fault f
    | .refused r => .refused r

/-- `s` with the request of a table word at the head of the script, so that the next step presents exactly it. -/
def State.withFetchWord (s : State) (nbits w : Nat) : State :=
  match requestOfTableWord nbits w with
  | some p => s.load p
  | none => s

end Sys2Proof.Machine
end

