-- ==== Sys2Proof/Machine/Asm.lean ====
section
/-! DEFINITION. Machine/Asm.lean: the spelling of requests and responses (spec 30_encoding.md R52, R53), on the host's side: from a
written line to a script entry, and from an instruction or a response to its spelling. There are no pseudo-instructions (R54). -/

namespace Sys2Proof

/-- A line of R52, once its operands are read. -/
inductive AsmLine where
  | rotaryAdd (wd : Width) (a b : Operand)
  | rotarySub (wd : Width) (a b : Operand)
  | cycleAdd (wd : Width) (a b base : Operand)
  | cycleSub (wd : Width) (a b base : Operand)
  | seriesAdd (wd : Width) (a b limit : Operand)
  | seriesSub (wd : Width) (a b limit : Operand)
  | seriesMod (wd : Width) (a limit : Operand)
  | raw (wd : Width) (op : Nat) (a b m : Operand)
  deriving DecidableEq, Repr

/-- Why a line is no request. -/
inductive AsmError where
  /-- The text has not the form of R52. -/
  | malformed
  /-- A literal does not fit in its field: an assembly error, never truncated (R52). Of several, the code of `raw` is reported
  before the operands, and those from first to last; that a code of 8 or more is such an error follows from the 3 bits of its
  field (DESIGN CHOICE, log entry 11). -/
  | literalTooWide (v : Nat)
  deriving DecidableEq, Repr

/-- The first literal among the operands that does not fit W bits. -/
def tooWide (w : Nat) : List Operand → Option Nat
  | [] => none
  | .lit v :: rest => if v < 2 ^ w then tooWide w rest else some v
  | .result _ :: rest => tooWide w rest

/-- An entry whose literals have been checked against the width of its instance (R52). -/
def checkedEntry (wd : Width) (op : BitVec 3) (a b m : Operand) : Except AsmError Entry :=
  match tooWide wd.bits [a, b, m] with
  | none => .ok ⟨wd, op, a, b, m⟩
  | some v => .error (.literalTooWide v)

/-- The assembler: 0 is written in every field the operation does not read (R53), and `raw` spells any request. -/
def assemble : AsmLine → Except AsmError Entry
  | .rotaryAdd wd a b => checkedEntry wd (Op.code .rotaryAdd) a b (.lit 0)
  | .rotarySub wd a b => checkedEntry wd (Op.code .rotarySub) a b (.lit 0)
  | .cycleAdd wd a b base => checkedEntry wd (Op.code .cycleAdd) a b base
  | .cycleSub wd a b base => checkedEntry wd (Op.code .cycleSub) a b base
  | .seriesAdd wd a b limit => checkedEntry wd (Op.code .seriesAdd) a b limit
  | .seriesSub wd a b limit => checkedEntry wd (Op.code .seriesSub) a b limit
  | .seriesMod wd a limit => checkedEntry wd (Op.code .seriesMod) a (.lit 0) limit
  | .raw wd op a b m =>
    if op < 8 then checkedEntry wd (BitVec.ofNat 3 op) a b m else .error (.literalTooWide op)

/-- How a request is printed: with its mnemonic when its don't-care fields are all 0, and with `raw` otherwise (R53). -/
def Request.line {w : Nat} (wd : Width) (q : Request w) : AsmLine :=
  let a := Operand.lit q.a.toNat
  let b := Operand.lit q.b.toNat
  let m := Operand.lit q.m.toNat
  match Op.ofCode q.op with
  | .rotaryAdd => if q.m = 0 then .rotaryAdd wd a b else .raw wd q.op.toNat a b m
  | .rotarySub => if q.m = 0 then .rotarySub wd a b else .raw wd q.op.toNat a b m
  | .cycleAdd => .cycleAdd wd a b m
  | .cycleSub => .cycleSub wd a b m
  | .seriesAdd => .seriesAdd wd a b m
  | .seriesSub => .seriesSub wd a b m
  | .seriesMod => if q.b = 0 then .seriesMod wd a m else .raw wd q.op.toNat a b m
  | .reserved => .raw wd q.op.toNat a b m

/-- The disassembler (R53). -/
def disassemble (i : Instr) : AsmLine :=
  match i.request with
  | .r8 q => q.line .w8
  | .r16 q => q.line .w16
  | .r32 q => q.line .w32
  | .r64 q => q.line .w64

/-- The instance a line is for. -/
def AsmLine.width : AsmLine → Width
  | .rotaryAdd wd _ _ => wd
  | .rotarySub wd _ _ => wd
  | .cycleAdd wd _ _ _ => wd
  | .cycleSub wd _ _ _ => wd
  | .seriesAdd wd _ _ _ => wd
  | .seriesSub wd _ _ _ => wd
  | .seriesMod wd _ _ => wd
  | .raw wd _ _ _ _ => wd

/-- The operands of a line as they are written. The code of `raw` is not among them. -/
def AsmLine.operands : AsmLine → List Operand
  | .rotaryAdd _ a b => [a, b]
  | .rotarySub _ a b => [a, b]
  | .cycleAdd _ a b base => [a, b, base]
  | .cycleSub _ a b base => [a, b, base]
  | .seriesAdd _ a b limit => [a, b, limit]
  | .seriesSub _ a b limit => [a, b, limit]
  | .seriesMod _ a limit => [a, limit]
  | .raw _ _ a b m => [a, b, m]

/-- The operation code of a line: for `raw` the number that is written, which need not fit in 3 bits. -/
def AsmLine.code : AsmLine → Nat
  | .rotaryAdd _ _ _ => 0
  | .rotarySub _ _ _ => 1
  | .cycleAdd _ _ _ _ => 2
  | .cycleSub _ _ _ _ => 3
  | .seriesAdd _ _ _ _ => 4
  | .seriesSub _ _ _ _ => 5
  | .seriesMod _ _ _ => 6
  | .raw _ op _ _ _ => op

/-- Whether a line is written with `raw`. -/
def AsmLine.isRaw : AsmLine → Bool
  | .raw _ _ _ _ _ => true
  | .rotaryAdd _ _ _ => false
  | .rotarySub _ _ _ => false
  | .cycleAdd _ _ _ _ => false
  | .cycleSub _ _ _ _ => false
  | .seriesAdd _ _ _ _ => false
  | .seriesSub _ _ _ _ => false
  | .seriesMod _ _ _ => false

/-! ## Spelling -/

/-- The suffix that names a width. -/
def Width.suffix : Width → String
  | .w8 => ".8"
  | .w16 => ".16"
  | .w32 => ".32"
  | .w64 => ".64"

/-- A literal in decimal, or `$n`. -/
def Operand.spell : Operand → String
  | .lit v => Nat.repr v
  | .result n => "$" ++ Nat.repr n

/-- Mnemonic, suffix and operands, separated by commas. -/
def spellLine (name : String) (wd : Width) (args : List String) : String :=
  name ++ wd.suffix ++ " " ++ String.intercalate ", " args

/-- A line as text. -/
def AsmLine.spell : AsmLine → String
  | .rotaryAdd wd a b => spellLine "rotary_add" wd [a.spell, b.spell]
  | .rotarySub wd a b => spellLine "rotary_sub" wd [a.spell, b.spell]
  | .cycleAdd wd a b base => spellLine "cycle_add" wd [a.spell, b.spell, base.spell]
  | .cycleSub wd a b base => spellLine "cycle_sub" wd [a.spell, b.spell, base.spell]
  | .seriesAdd wd a b limit => spellLine "series_add" wd [a.spell, b.spell, limit.spell]
  | .seriesSub wd a b limit => spellLine "series_sub" wd [a.spell, b.spell, limit.spell]
  | .seriesMod wd a limit => spellLine "series_mod" wd [a.spell, limit.spell]
  | .raw wd op a b m => spellLine "raw" wd [Nat.repr op, a.spell, b.spell, m.spell]

/-- A cause by its name. -/
def Cause.spell : Cause → String
  | .zeroModulus => "ZERO_MODULUS"
  | .illegalOp => "ILLEGAL_OP"

/-- A response as it is written after a request. -/
def Response.spell {w : Nat} : Response w → String
  | .ok r true => "-> " ++ Nat.repr r.toNat ++ " pv"
  | .ok r false => "-> " ++ Nat.repr r.toNat
  | .fault c => "-> fault " ++ c.spell

/-! ## Reading a line

R52 leaves blanks, the case of hexadecimal digits and leading zeros open: the model skips blanks around operands, takes both cases
and takes any number of zeros before a number (DESIGN CHOICE, log entry 11). -/

/-- Cuts a text at every `c`. -/
def cutAt (c : Char) : List Char → List (List Char)
  | [] => [[]]
  | x :: rest =>
    match cutAt c rest with
    | [] => [[]]
    | piece :: pieces => if x = c then [] :: piece :: pieces else (x :: piece) :: pieces

/-- Drops the blanks at both ends. -/
def trimBlanks (cs : List Char) : List Char :=
  ((cs.dropWhile (· == ' ')).reverse.dropWhile (· == ' ')).reverse

/-- The value of a digit in a base. -/
def digitValue (base : Nat) (c : Char) : Option Nat :=
  let n := c.toNat
  let v := if 48 ≤ n ∧ n ≤ 57 then n - 48
    else if 97 ≤ n ∧ n ≤ 102 then n - 87
    else if 65 ≤ n ∧ n ≤ 70 then n - 55
    else base
  if v < base then some v else none

/-- The digits read after those that make up `acc`. -/
def readDigits (base : Nat) (acc : Nat) : List Char → Option Nat
  | [] => some acc
  | c :: rest =>
    match digitValue base c with
    | some d => readDigits base (acc * base + d) rest
    | none => none

/-- A number of at least one digit. Zeros may stand before it (DESIGN CHOICE, log entry 11). -/
def readNumber (base : Nat) : List Char → Option Nat
  | [] => none
  | c :: rest => readDigits base 0 (c :: rest)

/-- An unsigned literal in decimal, `0x` hexadecimal or `0b` binary. -/
def readLiteral : List Char → Option Nat
  | '0' :: 'x' :: ds => readNumber 16 ds
  | '0' :: 'b' :: ds => readNumber 2 ds
  | ds => readNumber 10 ds

/-- A literal or `$n`. -/
def readOperand : List Char → Option Operand
  | '$' :: ds => (readNumber 10 ds).map .result
  | ds => (readLiteral ds).map .lit

/-- All operands, if each can be read. -/
def readOperands : List (List Char) → Option (List Operand)
  | [] => some []
  | cs :: rest =>
    match readOperand (trimBlanks cs), readOperands rest with
    | some x, some xs => some (x :: xs)
    | _, _ => none

/-- The width a suffix names, read as a number, so that `.08` is `.8` (DESIGN CHOICE, log entry 11). -/
def readWidth (cs : List Char) : Option Width :=
  match readNumber 10 cs with
  | some 8 => some .w8
  | some 16 => some .w16
  | some 32 => some .w32
  | some 64 => some .w64
  | _ => none

/-- The line of a mnemonic with these operands, if it takes that many. The code of `raw` is a literal. -/
def lineOf (name : List Char) (wd : Width) (args : List Operand) : Option AsmLine :=
  match args with
  | [a, b] =>
    if name = "rotary_add".toList then some (.rotaryAdd wd a b)
    else if name = "rotary_sub".toList then some (.rotarySub wd a b)
    else if name = "series_mod".toList then some (.seriesMod wd a b)
    else none
  | [a, b, m] =>
    if name = "cycle_add".toList then some (.cycleAdd wd a b m)
    else if name = "cycle_sub".toList then some (.cycleSub wd a b m)
    else if name = "series_add".toList then some (.seriesAdd wd a b m)
    else if name = "series_sub".toList then some (.seriesSub wd a b m)
    else none
  | [.lit op, a, b, m] => if name = "raw".toList then some (.raw wd op a b m) else none
  | _ => none

/-- A line of text. -/
def readLine (text : String) : Option AsmLine :=
  let cs := trimBlanks text.toList
  match cutAt '.' (cs.takeWhile (· != ' ')), readOperands (cutAt ',' (cs.dropWhile (· != ' '))) with
  | [name, suffix], some args =>
    match readWidth suffix with
    | some wd => lineOf name wd args
    | none => none
  | _, _ => none

/-- The script entry a line of text stands for. -/
def assembleText (text : String) : Except AsmError Entry :=
  match readLine text with
  | some l => assemble l
  | none => .error .malformed

end Sys2Proof
end

