-- ==== Sys2Proof/Safety.lean ====
section
/-! DEFINITION. Safety.lean: the terms in which claims are stated: what a settled machine and a fault-free run are, which inputs an
operation reads, and the result each operation's rule demands, over the integers and by the datapath. -/

namespace Sys2Proof.Machine

/-! ## Machines and runs -/

/-- An instance's outputs are the function `Exec_W` of its present inputs, and unspecified exactly while an input is undriven
(spec 10_state.md R19, 70_reset_and_hazards.md R125). -/
abbrev Wau.Settled {w : Nat} (u : Wau w) : Prop := u.out = u.inp.request?.map evaluate

/-- Every instance is settled. -/
abbrev State.Settled (s : State) : Prop := s.u8.Settled ∧ s.u16.Settled ∧ s.u32.Settled ∧ s.u64.Settled

/-- No fault was recorded in the run: the premise under which R121 (60_exceptions.md) asks a host's claims to be stated. -/
abbrev State.FaultFree (s : State) : Prop := s.faultMark = false

/-- The responses a host ends with when it presents a script, one entry after another, having sampled `rs`: those of `rs` and
then `Exec_W` of each request, a later request being built from earlier results where its entry says so; or the host's rejection
of the first entry that gives no request (R133, 30_encoding.md R52). -/
def answers (rs : List Sampled) : List Entry → Except Refusal (List Sampled)
  | [] => .ok rs
  | e :: rest =>
    match resolve e rs with
    | .ok p => answers (rs ++ [answerOf p]) rest
    | .error why => .error why

/-- `s'` differs from `s` at most in what is on the ports of the instance of width `wd`. -/
def SameBut (wd : Width) (s s' : State) : Prop :=
  (wd ≠ .w8 → s'.u8 = s.u8) ∧ (wd ≠ .w16 → s'.u16 = s.u16) ∧ (wd ≠ .w32 → s'.u32 = s.u32) ∧
    (wd ≠ .w64 → s'.u64 = s.u64) ∧ s'.run = s.run

/-- The instance has the request `q` on all four inputs, and its outputs show the result `r` and the advisory bit `pv`, as a
response (00_scope.md R12) and port by port (10_state.md R18). -/
def Wau.Shows {w : Nat} (u : Wau w) (q : Request w) (r : BitVec w) (pv : Bool) : Prop :=
  u.inp = ⟨some q.op, some q.a, some q.b, some q.m⟩ ∧ u.out = some (.ok r pv) ∧
    u.outPorts = some ⟨r, 0, 0, if pv then 1 else 0⟩

/-- The instance has the request `q` on all four inputs, and its outputs show a fault, as a response without a result (R12,
R121) and port by port (R18). -/
def Wau.ShowsFault {w : Nat} (u : Wau w) (q : Request w) (c : Cause) : Prop :=
  u.inp = ⟨some q.op, some q.a, some q.b, some q.m⟩ ∧ u.out = some (.fault c) ∧
    u.outPorts = some ⟨0, 1, match c with | .zeroModulus => 0b01 | .illegalOp => 0b10, 0⟩

/-- The response of an operation to three operand ports, as the laws of the spec write it: ROTARY_ADD(a, b) and so on. -/
def ask {w : Nat} (o : Op) (a b m : BitVec w) : Response w := evaluate ⟨o.code, a, b, m⟩

/-! ## The inputs an operation reads (10_state.md R16) -/

/-- The operation reads `a`. -/
def readsA (o : Op) : Bool := o != .reserved

/-- The operation reads `b`. -/
def readsB (o : Op) : Bool := o != .seriesMod && o != .reserved

/-- The operation reads `m`. -/
def readsM (o : Op) : Bool := o != .rotaryAdd && o != .rotarySub && o != .reserved

/-- The request meets neither fault condition: it is not the reserved code, and reads no zero `m` (60_exceptions.md R104). -/
def NoFault {w : Nat} (q : Request w) : Prop := q.op ≠ 7 ∧ (readsM (Op.ofCode q.op) = true → q.m ≠ 0)

/-! ## The results the operation rules demand

Each relation says what `r` is over ℤ, where `%` is the non-negative residue of 00_scope.md R11, and that the datapath gives the
same `r` for every accumulator width of at least W + 1 bits (R7). -/

/-- The result of ROTARY_ADD (41_rotary.md R72). -/
def RotaryAddRule {w : Nat} (a b r : BitVec w) : Prop :=
  (r.toNat : ℤ) = ((a.toNat : ℤ) + b.toNat) % 2 ^ w ∧
    ∀ n, w + 1 ≤ n → r = driveResult w (modAdd n a b (nativeModulus w))

/-- The result of ROTARY_SUB (41_rotary.md R73). -/
def RotarySubRule {w : Nat} (a b r : BitVec w) : Prop :=
  (r.toNat : ℤ) = ((a.toNat : ℤ) - b.toNat) % 2 ^ w ∧
    ∀ n, w + 1 ≤ n → r = driveResult w (modSub n a b (nativeModulus w))

/-- The result of CYCLE_ADD with a base other than 0 (42_cycle.md R80). -/
def CycleAddRule {w : Nat} (a b base r : BitVec w) : Prop :=
  (r.toNat : ℤ) = ((a.toNat : ℤ) + b.toNat) % base.toNat ∧
    ∀ n, w + 1 ≤ n → r = driveResult w (modAdd n a b (portModulus base))

/-- The result of CYCLE_SUB with a base other than 0 (42_cycle.md R81). -/
def CycleSubRule {w : Nat} (a b base r : BitVec w) : Prop :=
  (r.toNat : ℤ) = ((a.toNat : ℤ) - b.toNat) % base.toNat ∧
    ∀ n, w + 1 ≤ n → r = driveResult w (modSub n a b (portModulus base))

/-- The result of SERIES_ADD with a limit other than 0 (43_series.md R90). -/
def SeriesAddRule {w : Nat} (a b limit r : BitVec w) : Prop :=
  (r.toNat : ℤ) = ((a.toNat : ℤ) - 1 + b.toNat) % limit.toNat + 1 ∧
    ∀ n, w + 1 ≤ n →
      r = driveResult w (seriesFix (modAdd n a b (portModulus limit)) (promote n (portModulus limit)))

/-- The result of SERIES_SUB with a limit other than 0 (43_series.md R91). -/
def SeriesSubRule {w : Nat} (a b limit r : BitVec w) : Prop :=
  (r.toNat : ℤ) = ((a.toNat : ℤ) - 1 - b.toNat) % limit.toNat + 1 ∧
    ∀ n, w + 1 ≤ n →
      r = driveResult w (seriesFix (modSub n a b (portModulus limit)) (promote n (portModulus limit)))

/-- The result of SERIES_MOD with a limit other than 0 (43_series.md R92). -/
def SeriesModRule {w : Nat} (a limit r : BitVec w) : Prop :=
  r.toNat = (if a.toNat % limit.toNat = 0 then limit.toNat else a.toNat % limit.toNat) ∧
    ∀ n, w + 1 ≤ n →
      r = driveResult w (seriesFix (reduce (promote n a) (promote n (portModulus limit)))
        (promote n (portModulus limit)))

end Sys2Proof.Machine

namespace Sys2Proof

/-- The request, to whichever instance, meets no fault condition. -/
def Presented.MeetsNoFault : Presented → Prop
  | .r8 q => Machine.NoFault q
  | .r16 q => Machine.NoFault q
  | .r32 q => Machine.NoFault q
  | .r64 q => Machine.NoFault q

end Sys2Proof
end

