-- ==== Sys2Proof/WellFormed.lean ====
section
/-! DEFINITION. WellFormed.lean: the checks on syntax. Every term of Instr is a legal request: every bit pattern on every input is
accepted (spec 10_state.md R16, 30_encoding.md R50), and the operand types hold exactly the W-bit values. What can be ill-formed
is how a request is written: its don't-care fields (R53) and the entries of a script (R52, R127). -/

namespace Sys2Proof

/-- The canonical form of R53: 0 in every field the operation does not read. The reserved code is never canonical: it has no
mnemonic of its own and only `raw` writes it (R52). -/
def Instr.canonical : Instr → Bool
  | .rotaryAdd8 _ _ m => m == 0
  | .rotarySub8 _ _ m => m == 0
  | .cycleAdd8 _ _ _ => true
  | .cycleSub8 _ _ _ => true
  | .seriesAdd8 _ _ _ => true
  | .seriesSub8 _ _ _ => true
  | .seriesMod8 _ b _ => b == 0
  | .reserved8 _ _ _ => false
  | .rotaryAdd16 _ _ m => m == 0
  | .rotarySub16 _ _ m => m == 0
  | .cycleAdd16 _ _ _ => true
  | .cycleSub16 _ _ _ => true
  | .seriesAdd16 _ _ _ => true
  | .seriesSub16 _ _ _ => true
  | .seriesMod16 _ b _ => b == 0
  | .reserved16 _ _ _ => false
  | .rotaryAdd32 _ _ m => m == 0
  | .rotarySub32 _ _ m => m == 0
  | .cycleAdd32 _ _ _ => true
  | .cycleSub32 _ _ _ => true
  | .seriesAdd32 _ _ _ => true
  | .seriesSub32 _ _ _ => true
  | .seriesMod32 _ b _ => b == 0
  | .reserved32 _ _ _ => false
  | .rotaryAdd64 _ _ m => m == 0
  | .rotarySub64 _ _ m => m == 0
  | .cycleAdd64 _ _ _ => true
  | .cycleSub64 _ _ _ => true
  | .seriesAdd64 _ _ _ => true
  | .seriesSub64 _ _ _ => true
  | .seriesMod64 _ b _ => b == 0
  | .reserved64 _ _ _ => false

/-- An operand of the `k`-th request of a script (counted from 1) for a W-bit instance: a literal fits in W bits (R52), and
`$n` names an earlier request of the script. -/
def Operand.wf (w k : Nat) : Operand → Bool
  | .lit v => decide (v < 2 ^ w)
  | .result n => decide (1 ≤ n) && decide (n < k)

/-- The `k`-th request of a script is well-formed when its three operands are. -/
def Entry.wf (k : Nat) (e : Entry) : Bool :=
  e.a.wf e.width.bits k && e.b.wf e.width.bits k && e.m.wf e.width.bits k

/-- A script is well-formed, its first request being the `k`-th of the run. Whether a `$n` names a request that gave a result
is known only when the script runs (95_test_vectors.md PG4). -/
def scriptWf (k : Nat) : List Entry → Bool
  | [] => true
  | e :: rest => e.wf k && scriptWf (k + 1) rest

end Sys2Proof
end

