-- ==== Sys2Proof/Certificates/Slice0/Obligations.lean ====
section
/-! DEFINITION. Certificates/Slice0/Obligations.lean: the statements for the provers, each citing the rule of spec/ it formalises. `ask o a b m`
is the response of operation `o`; `Wau.Shows`, `SameBut` and the operation rules are defined in Safety.lean. -/

open Sys2Proof Sys2Proof.Machine

/-- The six worked encodings of 30_encoding.md R57: the packed request word decodes to the request, the request is
serialised to those bytes, and `Exec_W` of it packs to that response word. The spec derives the table from R43 to R45. -/
def Obligations.WorkedEncodings : Prop :=
  (decodeTableWord 32 0x00025FE = some (.rotaryAdd8 254 37 0) ∧ encode (Instr.rotaryAdd8 254 37 0) = [0xFE, 0x25, 0x00, 0x00] ∧
    (∃ q, (Instr.rotaryAdd8 254 37 0).request = .r8 q ∧ (evaluate q).word = 0x023)) ∧
  (decodeTableWord 32 0x23C1D23 = some (.cycleAdd8 35 29 60) ∧ encode (Instr.cycleAdd8 35 29 60) = [0x23, 0x1D, 0x3C, 0x02] ∧
    (∃ q, (Instr.cycleAdd8 35 29 60).request = .r8 q ∧ (evaluate q).word = 0x004)) ∧
  (decodeTableWord 32 0x6070007 = some (.seriesMod8 7 0 7) ∧ encode (Instr.seriesMod8 7 0 7) = [0x07, 0x00, 0x07, 0x06] ∧
    (∃ q, (Instr.seriesMod8 7 0 7).request = .r8 q ∧ (evaluate q).word = 0x007)) ∧
  (decodeTableWord 32 0x2000201 = some (.cycleAdd8 1 2 0) ∧ encode (Instr.cycleAdd8 1 2 0) = [0x01, 0x02, 0x00, 0x02] ∧
    (∃ q, (Instr.cycleAdd8 1 2 0).request = .r8 q ∧ (evaluate q).word = 0x300)) ∧
  (decodeTableWord 32 0x7000000 = some (.reserved8 0 0 0) ∧ encode (Instr.reserved8 0 0 0) = [0x00, 0x00, 0x00, 0x07] ∧
    (∃ q, (Instr.reserved8 0 0 0).request = .r8 q ∧ (evaluate q).word = 0x500)) ∧
  (decodeTableWord 32 0x4070000 = some (.seriesAdd8 0 0 7) ∧ encode (Instr.seriesAdd8 0 0 7) = [0x00, 0x00, 0x07, 0x04] ∧
    (∃ q, (Instr.seriesAdd8 0 0 7).request = .r8 q ∧ (evaluate q).word = 0x807))

/-- The operation table of 30_encoding.md R45, for the instance of every width: which instruction each `op` value selects, with
the three operand fields unchanged. -/
def Obligations.OpCodeSelectsOperation : Prop :=
  (∀ a b m : BitVec 8, decode (.r8 ⟨0, a, b, m⟩) = .rotaryAdd8 a b m ∧ decode (.r8 ⟨1, a, b, m⟩) = .rotarySub8 a b m ∧
    decode (.r8 ⟨2, a, b, m⟩) = .cycleAdd8 a b m ∧
    decode (.r8 ⟨3, a, b, m⟩) = .cycleSub8 a b m ∧
    decode (.r8 ⟨4, a, b, m⟩) = .seriesAdd8 a b m ∧
    decode (.r8 ⟨5, a, b, m⟩) = .seriesSub8 a b m ∧
    decode (.r8 ⟨6, a, b, m⟩) = .seriesMod8 a b m ∧
    decode (.r8 ⟨7, a, b, m⟩) = .reserved8 a b m) ∧
  (∀ a b m : BitVec 16, decode (.r16 ⟨0, a, b, m⟩) = .rotaryAdd16 a b m ∧ decode (.r16 ⟨1, a, b, m⟩) = .rotarySub16 a b m ∧
    decode (.r16 ⟨2, a, b, m⟩) = .cycleAdd16 a b m ∧
    decode (.r16 ⟨3, a, b, m⟩) = .cycleSub16 a b m ∧
    decode (.r16 ⟨4, a, b, m⟩) = .seriesAdd16 a b m ∧
    decode (.r16 ⟨5, a, b, m⟩) = .seriesSub16 a b m ∧
    decode (.r16 ⟨6, a, b, m⟩) = .seriesMod16 a b m ∧
    decode (.r16 ⟨7, a, b, m⟩) = .reserved16 a b m) ∧
  (∀ a b m : BitVec 32, decode (.r32 ⟨0, a, b, m⟩) = .rotaryAdd32 a b m ∧ decode (.r32 ⟨1, a, b, m⟩) = .rotarySub32 a b m ∧
    decode (.r32 ⟨2, a, b, m⟩) = .cycleAdd32 a b m ∧
    decode (.r32 ⟨3, a, b, m⟩) = .cycleSub32 a b m ∧
    decode (.r32 ⟨4, a, b, m⟩) = .seriesAdd32 a b m ∧
    decode (.r32 ⟨5, a, b, m⟩) = .seriesSub32 a b m ∧
    decode (.r32 ⟨6, a, b, m⟩) = .seriesMod32 a b m ∧
    decode (.r32 ⟨7, a, b, m⟩) = .reserved32 a b m) ∧
  (∀ a b m : BitVec 64, decode (.r64 ⟨0, a, b, m⟩) = .rotaryAdd64 a b m ∧ decode (.r64 ⟨1, a, b, m⟩) = .rotarySub64 a b m ∧
    decode (.r64 ⟨2, a, b, m⟩) = .cycleAdd64 a b m ∧
    decode (.r64 ⟨3, a, b, m⟩) = .cycleSub64 a b m ∧
    decode (.r64 ⟨4, a, b, m⟩) = .seriesAdd64 a b m ∧
    decode (.r64 ⟨5, a, b, m⟩) = .seriesSub64 a b m ∧
    decode (.r64 ⟨6, a, b, m⟩) = .seriesMod64 a b m ∧
    decode (.r64 ⟨7, a, b, m⟩) = .reserved64 a b m)

/-- Decoding the serialised word of any instruction gives the instruction back, with every operand at every value
(20_memory.md R32, 30_encoding.md R43, R45). -/
def Obligations.DecodeInvertsEncode : Prop :=
  ∀ i : Instr, decodeBytes i.request.width (encode i) = .ok i

/-- Whatever bytes decode to an instruction, the instruction's own word is the word in those bytes with the padding set to 0
(R32: padding is "written as 0 and ignored when read"; R48: no don't-care field is required to be zero). -/
def Obligations.EncodeInvertsDecode : Prop :=
  ∀ (wd : Width) (bs : List Byte) (i : Instr), decodeBytes wd bs = .ok i →
    i.request.width = wd ∧ (encode i).length = bs.length ∧
      i.request.word = ofBytes bs % 2 ^ Config.reqWidth wd.bits

/-- The decoder is total (30_encoding.md R50) and a request has one length (R51): a string of bytes decodes exactly when it has
the length of R43's table, and only its length can be wrong. -/
def Obligations.DecoderIsTotal : Prop :=
  (∀ (wd : Width) (bs : List Byte), bs.length = reqBytes wd → ∃ i, decodeBytes wd bs = .ok i) ∧
  (∀ (wd : Width) (bs : List Byte), bs.length ≠ reqBytes wd → decodeBytes wd bs = .error .wrongLength) ∧
  reqBytes .w8 = 4 ∧ reqBytes .w16 = 7 ∧ reqBytes .w32 = 13 ∧ reqBytes .w64 = 25

/-- Format REQ (30_encoding.md R43), for every W: where each field stands in the packed word, and that packing and
unpacking are inverse. REQW and the byte counts of the four widths are those of its table. -/
def Obligations.RequestWordFormat : Prop :=
  (∀ (w : Nat) (x : BitVec (Config.reqWidth w)),
    (Request.ofWord x).a.toNat = x.toNat % 2 ^ w ∧
    (Request.ofWord x).b.toNat = x.toNat / 2 ^ w % 2 ^ w ∧
    (Request.ofWord x).m.toNat = x.toNat / 2 ^ (2 * w) % 2 ^ w ∧
    (Request.ofWord x).op.toNat = x.toNat / 2 ^ (3 * w) % 2 ^ 3 ∧
    (Request.ofWord x).word = x) ∧
  (∀ (w : Nat) (q : Request w), Request.ofWord q.word = q) ∧
  Config.reqWidth 8 = 27 ∧ Config.reqWidth 16 = 51 ∧ Config.reqWidth 32 = 99 ∧ Config.reqWidth 64 = 195 ∧
  reqBytes .w8 = 4 ∧ reqBytes .w16 = 7 ∧ reqBytes .w32 = 13 ∧ reqBytes .w64 = 25

/-- Format RSP (30_encoding.md R44), for every W: the packed word of a response is made of its port values (10_state.md R18)
at those places. -/
def Obligations.ResponseWordFormat : Prop :=
  (∀ (w : Nat) (p : Response w),
    p.word.toNat = p.ports.r.toNat + p.ports.fault.toNat * 2 ^ w + p.ports.cause.toNat * 2 ^ (w + 1) +
      p.ports.pv.toNat * 2 ^ (w + 3)) ∧
  (∀ (w : Nat) (r : BitVec w) (pv : Bool),
    (Response.ok r pv).ports = ⟨r, 0, 0b00, if pv then 1 else 0⟩) ∧
  (∀ w : Nat, (Response.fault .zeroModulus : Response w).ports = ⟨0, 1, 0b01, 0⟩) ∧
  (∀ w : Nat, (Response.fault .illegalOp : Response w).ports = ⟨0, 1, 0b10, 0⟩) ∧
  Config.rspWidth 8 = 12 ∧ Config.rspWidth 16 = 20 ∧ Config.rspWidth 32 = 36 ∧ Config.rspWidth 64 = 68 ∧
  Config.byteCount 12 = 2 ∧ Config.byteCount 20 = 3 ∧ Config.byteCount 36 = 5 ∧ Config.byteCount 68 = 9

/-- Every response the WAU gives is read back from its packed word; a word that is read as a response is that response's own, and
some request is answered with it; and a word is refused exactly when no request's response packs to it (30_encoding.md R55,
93_implementation_defined.md U8). -/
def Obligations.ResponseWordDecodes : Prop :=
  (∀ (w : Nat) (q : Request w), Response.ofWord (evaluate q).word = some (evaluate q)) ∧
  (∀ (w : Nat) (x : BitVec (Config.rspWidth w)) (p : Response w), Response.ofWord x = some p →
    p.word = x ∧ ∃ q : Request w, evaluate q = p) ∧
  (∀ (w : Nat) (x : BitVec (Config.rspWidth w)), Response.ofWord x = none ↔ ∀ q : Request w, (evaluate q).word ≠ x)

/-- Serialisation (20_memory.md R32): byte j of a word holds its bits [8j+7:8j], and reading the bytes back gives the word. -/
def Obligations.BytesAreLittleEndian : Prop :=
  ∀ k x : Nat, (toBytes k x).length = k ∧ ofBytes (toBytes k x) = x % 256 ^ k ∧
    ∀ j, j < k → (toBytes k x)[j]? = some (BitVec.ofNat 8 (x / 256 ^ j))

/-- The modular adder (40_datapath.md R66), for every operand width and every accumulator of at least W + 1 bits: the
values it forms are those of the rule's pseudocode, and its result is (x + y) mod M. -/
def Obligations.ModAddIsModularAddition : Prop :=
  ∀ (w n : Nat) (x y : BitVec w) (M : BitVec (w + 1)), w + 1 ≤ n → 1 ≤ M.toNat → M.toNat ≤ 2 ^ w →
    ∃ ym s : BitVec n,
      ym = reduce (promote n y) (promote n M) ∧ ym.toNat = y.toNat % M.toNat ∧ ym.toNat ≤ M.toNat - 1 ∧
      s = accAdd (promote n x) ym ∧ s.toNat = x.toNat + ym.toNat ∧ s.toNat ≤ 2 ^ (w + 1) - 2 ∧
      modAdd n x y M = reduce s (promote n M) ∧
      (modAdd n x y M).toNat = (x.toNat + y.toNat) % M.toNat ∧ (modAdd n x y M).toNat ≤ M.toNat - 1 ∧
      (M.toNat = 2 ^ w → ym.toNat = y.toNat)

/-- The modular subtractor (40_datapath.md R67), for every operand width and every accumulator of at least W + 1 bits: both
branches of the rule's pseudocode, their ranges, and the result (x − y) mod M over ℤ. -/
def Obligations.ModSubIsModularSubtraction : Prop :=
  ∀ (w n : Nat) (x y : BitVec w) (M : BitVec (w + 1)), w + 1 ≤ n → 1 ≤ M.toNat → M.toNat ≤ 2 ^ w →
    ∃ ym : BitVec n,
      ym = reduce (promote n y) (promote n M) ∧ ym.toNat = y.toNat % M.toNat ∧ ym.toNat ≤ M.toNat - 1 ∧
      (ym.toNat ≤ x.toNat →
        modSub n x y M = reduce (accSub (promote n x) ym) (promote n M) ∧
        (accSub (promote n x) ym).toNat = x.toNat - ym.toNat) ∧
      (x.toNat < ym.toNat →
        modSub n x y M = accSub (promote n M) (accSub ym (promote n x)) ∧
        (modSub n x y M).toNat = M.toNat - (ym.toNat - x.toNat) ∧
        1 ≤ (modSub n x y M).toNat ∧ (modSub n x y M).toNat ≤ M.toNat - 1) ∧
      ((modSub n x y M).toNat : ℤ) = ((x.toNat : ℤ) - y.toNat) % M.toNat

/-- The series fix-up (40_datapath.md R68): what it does, its range, and the identity with the one-based shift, which the spec
marks as derived. -/
def Obligations.SeriesFixMapsZeroToLimit : Prop :=
  (∀ (n : Nat) (q L : BitVec n), q.toNat < L.toNat →
    (q.toNat = 0 → seriesFix q L = L) ∧ (q.toNat ≠ 0 → seriesFix q L = q) ∧
      1 ≤ (seriesFix q L).toNat ∧ (seriesFix q L).toNat ≤ L.toNat) ∧
  (∀ (n : Nat) (x : ℤ) (q L : BitVec n), L.toNat ≠ 0 → (q.toNat : ℤ) = x % L.toNat →
    ((seriesFix q L).toNat : ℤ) = (x - 1) % L.toNat + 1)

/-- The bounds of 40_datapath.md R69, and what it concludes from them: any accumulator of at least W + 1 bits gives the same
results (00_scope.md R7). The spec marks the rule as derived. -/
def Obligations.AccumulatorWidthIsNotObservable : Prop :=
  (∀ (w n : Nat) (x y : BitVec w) (M : BitVec (w + 1)), w + 1 ≤ n → 1 ≤ M.toNat → M.toNat ≤ 2 ^ w →
    1 ≤ w → (promote n M).toNat = M.toNat ∧ M.toNat ≤ 2 ^ (w + 1) - 2 ∧
    (reduce (promote n y) (promote n M)).toNat ≤ maxValue w ∧
    (accAdd (promote n x) (reduce (promote n y) (promote n M))).toNat ≤ 2 ^ (w + 1) - 2 ∧
    ((reduce (promote n y) (promote n M)).toNat ≤ x.toNat →
      (accSub (promote n x) (reduce (promote n y) (promote n M))).toNat ≤ maxValue w) ∧
    (x.toNat < (reduce (promote n y) (promote n M)).toNat →
      (accSub (reduce (promote n y) (promote n M)) (promote n x)).toNat ≤ M.toNat - 1 ∧
      (accSub (promote n M) (accSub (reduce (promote n y) (promote n M)) (promote n x))).toNat ≤ M.toNat - 1) ∧
    (modAdd n x y M).toNat ≤ maxValue w ∧ (modSub n x y M).toNat ≤ maxValue w ∧
    (∀ L : BitVec w, 1 ≤ L.toNat → M = portModulus L →
      (seriesFix (modAdd n x y M) (promote n M)).toNat ≤ maxValue w ∧
      (seriesFix (modSub n x y M) (promote n M)).toNat ≤ maxValue w)) ∧
  (∀ (w n k : Nat) (x y : BitVec w) (M : BitVec (w + 1)), w + 1 ≤ n → w + 1 ≤ k → 1 ≤ M.toNat →
    M.toNat ≤ 2 ^ w →
    (modAdd n x y M).toNat = (modAdd k x y M).toNat ∧ (modSub n x y M).toNat = (modSub k x y M).toNat ∧
    driveResult w (seriesFix (modAdd n x y M) (promote n M)) =
      driveResult w (seriesFix (modAdd k x y M) (promote k M)) ∧
    driveResult w (seriesFix (modSub n x y M) (promote n M)) =
      driveResult w (seriesFix (modSub k x y M) (promote k M)) ∧
    driveResult w (seriesFix (reduce (promote n x) (promote n M)) (promote n M)) =
      driveResult w (seriesFix (reduce (promote k x) (promote k M)) (promote k M)))

/-- ROTARY_ADD (41_rotary.md R72) in every state, at every width, whatever `m` holds: it completes, with the inputs driven, the
result (a + b) mod 2^W, `fault`, `cause` and `pv` 0, and everything else unchanged. -/
def Obligations.RotaryAddResult : Prop :=
  ∀ s : State,
  (∀ a b m : BitVec 8, ∃ t r,
    exec (.rotaryAdd8 a b m) s = .next t ∧ t.u8.Shows ⟨0, a, b, m⟩ r false ∧ SameBut .w8 s t ∧
      RotaryAddRule a b r) ∧
  (∀ a b m : BitVec 16, ∃ t r,
    exec (.rotaryAdd16 a b m) s = .next t ∧ t.u16.Shows ⟨0, a, b, m⟩ r false ∧ SameBut .w16 s t ∧
      RotaryAddRule a b r) ∧
  (∀ a b m : BitVec 32, ∃ t r,
    exec (.rotaryAdd32 a b m) s = .next t ∧ t.u32.Shows ⟨0, a, b, m⟩ r false ∧ SameBut .w32 s t ∧
      RotaryAddRule a b r) ∧
  (∀ a b m : BitVec 64, ∃ t r,
    exec (.rotaryAdd64 a b m) s = .next t ∧ t.u64.Shows ⟨0, a, b, m⟩ r false ∧ SameBut .w64 s t ∧
      RotaryAddRule a b r)

/-- ROTARY_SUB (41_rotary.md R73) in every state, at every width, whatever `m` holds. -/
def Obligations.RotarySubResult : Prop :=
  ∀ s : State,
  (∀ a b m : BitVec 8, ∃ t r,
    exec (.rotarySub8 a b m) s = .next t ∧ t.u8.Shows ⟨1, a, b, m⟩ r false ∧ SameBut .w8 s t ∧
      RotarySubRule a b r) ∧
  (∀ a b m : BitVec 16, ∃ t r,
    exec (.rotarySub16 a b m) s = .next t ∧ t.u16.Shows ⟨1, a, b, m⟩ r false ∧ SameBut .w16 s t ∧
      RotarySubRule a b r) ∧
  (∀ a b m : BitVec 32, ∃ t r,
    exec (.rotarySub32 a b m) s = .next t ∧ t.u32.Shows ⟨1, a, b, m⟩ r false ∧ SameBut .w32 s t ∧
      RotarySubRule a b r) ∧
  (∀ a b m : BitVec 64, ∃ t r,
    exec (.rotarySub64 a b m) s = .next t ∧ t.u64.Shows ⟨1, a, b, m⟩ r false ∧ SameBut .w64 s t ∧
      RotarySubRule a b r)

/-- CYCLE_ADD (42_cycle.md R80) in every state, at every width: with a base other than 0 its result, with base 0 the fault. -/
def Obligations.CycleAddResult : Prop :=
  ∀ s : State,
  (∀ a b m : BitVec 8, m ≠ 0 → ∃ t r,
    exec (.cycleAdd8 a b m) s = .next t ∧ t.u8.Shows ⟨2, a, b, m⟩ r false ∧ SameBut .w8 s t ∧
      CycleAddRule a b m r) ∧
  (∀ a b m : BitVec 16, m ≠ 0 → ∃ t r,
    exec (.cycleAdd16 a b m) s = .next t ∧ t.u16.Shows ⟨2, a, b, m⟩ r false ∧ SameBut .w16 s t ∧
      CycleAddRule a b m r) ∧
  (∀ a b m : BitVec 32, m ≠ 0 → ∃ t r,
    exec (.cycleAdd32 a b m) s = .next t ∧ t.u32.Shows ⟨2, a, b, m⟩ r false ∧ SameBut .w32 s t ∧
      CycleAddRule a b m r) ∧
  (∀ a b m : BitVec 64, m ≠ 0 → ∃ t r,
    exec (.cycleAdd64 a b m) s = .next t ∧ t.u64.Shows ⟨2, a, b, m⟩ r false ∧ SameBut .w64 s t ∧
      CycleAddRule a b m r) ∧
  (∀ a b m : BitVec 8, m = 0 → ∃ t,
    exec (.cycleAdd8 a b m) s = .next t ∧ t.u8.ShowsFault ⟨2, a, b, m⟩ .zeroModulus ∧ SameBut .w8 s t) ∧
  (∀ a b m : BitVec 16, m = 0 → ∃ t,
    exec (.cycleAdd16 a b m) s = .next t ∧ t.u16.ShowsFault ⟨2, a, b, m⟩ .zeroModulus ∧ SameBut .w16 s t) ∧
  (∀ a b m : BitVec 32, m = 0 → ∃ t,
    exec (.cycleAdd32 a b m) s = .next t ∧ t.u32.ShowsFault ⟨2, a, b, m⟩ .zeroModulus ∧ SameBut .w32 s t) ∧
  (∀ a b m : BitVec 64, m = 0 → ∃ t,
    exec (.cycleAdd64 a b m) s = .next t ∧ t.u64.ShowsFault ⟨2, a, b, m⟩ .zeroModulus ∧ SameBut .w64 s t)

/-- CYCLE_SUB (42_cycle.md R81) in every state, at every width: with a base other than 0 its result, with base 0 the fault. -/
def Obligations.CycleSubResult : Prop :=
  ∀ s : State,
  (∀ a b m : BitVec 8, m ≠ 0 → ∃ t r,
    exec (.cycleSub8 a b m) s = .next t ∧ t.u8.Shows ⟨3, a, b, m⟩ r false ∧ SameBut .w8 s t ∧
      CycleSubRule a b m r) ∧
  (∀ a b m : BitVec 16, m ≠ 0 → ∃ t r,
    exec (.cycleSub16 a b m) s = .next t ∧ t.u16.Shows ⟨3, a, b, m⟩ r false ∧ SameBut .w16 s t ∧
      CycleSubRule a b m r) ∧
  (∀ a b m : BitVec 32, m ≠ 0 → ∃ t r,
    exec (.cycleSub32 a b m) s = .next t ∧ t.u32.Shows ⟨3, a, b, m⟩ r false ∧ SameBut .w32 s t ∧
      CycleSubRule a b m r) ∧
  (∀ a b m : BitVec 64, m ≠ 0 → ∃ t r,
    exec (.cycleSub64 a b m) s = .next t ∧ t.u64.Shows ⟨3, a, b, m⟩ r false ∧ SameBut .w64 s t ∧
      CycleSubRule a b m r) ∧
  (∀ a b m : BitVec 8, m = 0 → ∃ t,
    exec (.cycleSub8 a b m) s = .next t ∧ t.u8.ShowsFault ⟨3, a, b, m⟩ .zeroModulus ∧ SameBut .w8 s t) ∧
  (∀ a b m : BitVec 16, m = 0 → ∃ t,
    exec (.cycleSub16 a b m) s = .next t ∧ t.u16.ShowsFault ⟨3, a, b, m⟩ .zeroModulus ∧ SameBut .w16 s t) ∧
  (∀ a b m : BitVec 32, m = 0 → ∃ t,
    exec (.cycleSub32 a b m) s = .next t ∧ t.u32.ShowsFault ⟨3, a, b, m⟩ .zeroModulus ∧ SameBut .w32 s t) ∧
  (∀ a b m : BitVec 64, m = 0 → ∃ t,
    exec (.cycleSub64 a b m) s = .next t ∧ t.u64.ShowsFault ⟨3, a, b, m⟩ .zeroModulus ∧ SameBut .w64 s t)

/-- SERIES_ADD (43_series.md R90) in every state, at every width: with a limit other than 0 its result for every `a`, with `pv`
for `a` outside [1, limit]; with limit 0 the fault, and `pv` 0. -/
def Obligations.SeriesAddResult : Prop :=
  ∀ s : State,
  (∀ a b m : BitVec 8, m ≠ 0 → ∃ t r,
    exec (.seriesAdd8 a b m) s = .next t ∧ t.u8.Shows ⟨4, a, b, m⟩ r (decide (a.toNat = 0 ∨ m.toNat < a.toNat)) ∧ SameBut .w8 s t ∧
      SeriesAddRule a b m r) ∧
  (∀ a b m : BitVec 16, m ≠ 0 → ∃ t r,
    exec (.seriesAdd16 a b m) s = .next t ∧ t.u16.Shows ⟨4, a, b, m⟩ r (decide (a.toNat = 0 ∨ m.toNat < a.toNat)) ∧ SameBut .w16 s t ∧
      SeriesAddRule a b m r) ∧
  (∀ a b m : BitVec 32, m ≠ 0 → ∃ t r,
    exec (.seriesAdd32 a b m) s = .next t ∧ t.u32.Shows ⟨4, a, b, m⟩ r (decide (a.toNat = 0 ∨ m.toNat < a.toNat)) ∧ SameBut .w32 s t ∧
      SeriesAddRule a b m r) ∧
  (∀ a b m : BitVec 64, m ≠ 0 → ∃ t r,
    exec (.seriesAdd64 a b m) s = .next t ∧ t.u64.Shows ⟨4, a, b, m⟩ r (decide (a.toNat = 0 ∨ m.toNat < a.toNat)) ∧ SameBut .w64 s t ∧
      SeriesAddRule a b m r) ∧
  (∀ a b m : BitVec 8, m = 0 → ∃ t,
    exec (.seriesAdd8 a b m) s = .next t ∧ t.u8.ShowsFault ⟨4, a, b, m⟩ .zeroModulus ∧ SameBut .w8 s t) ∧
  (∀ a b m : BitVec 16, m = 0 → ∃ t,
    exec (.seriesAdd16 a b m) s = .next t ∧ t.u16.ShowsFault ⟨4, a, b, m⟩ .zeroModulus ∧ SameBut .w16 s t) ∧
  (∀ a b m : BitVec 32, m = 0 → ∃ t,
    exec (.seriesAdd32 a b m) s = .next t ∧ t.u32.ShowsFault ⟨4, a, b, m⟩ .zeroModulus ∧ SameBut .w32 s t) ∧
  (∀ a b m : BitVec 64, m = 0 → ∃ t,
    exec (.seriesAdd64 a b m) s = .next t ∧ t.u64.ShowsFault ⟨4, a, b, m⟩ .zeroModulus ∧ SameBut .w64 s t)

/-- SERIES_SUB (43_series.md R91) in every state, at every width; faults and `pv` as SERIES_ADD. -/
def Obligations.SeriesSubResult : Prop :=
  ∀ s : State,
  (∀ a b m : BitVec 8, m ≠ 0 → ∃ t r,
    exec (.seriesSub8 a b m) s = .next t ∧ t.u8.Shows ⟨5, a, b, m⟩ r (decide (a.toNat = 0 ∨ m.toNat < a.toNat)) ∧ SameBut .w8 s t ∧
      SeriesSubRule a b m r) ∧
  (∀ a b m : BitVec 16, m ≠ 0 → ∃ t r,
    exec (.seriesSub16 a b m) s = .next t ∧ t.u16.Shows ⟨5, a, b, m⟩ r (decide (a.toNat = 0 ∨ m.toNat < a.toNat)) ∧ SameBut .w16 s t ∧
      SeriesSubRule a b m r) ∧
  (∀ a b m : BitVec 32, m ≠ 0 → ∃ t r,
    exec (.seriesSub32 a b m) s = .next t ∧ t.u32.Shows ⟨5, a, b, m⟩ r (decide (a.toNat = 0 ∨ m.toNat < a.toNat)) ∧ SameBut .w32 s t ∧
      SeriesSubRule a b m r) ∧
  (∀ a b m : BitVec 64, m ≠ 0 → ∃ t r,
    exec (.seriesSub64 a b m) s = .next t ∧ t.u64.Shows ⟨5, a, b, m⟩ r (decide (a.toNat = 0 ∨ m.toNat < a.toNat)) ∧ SameBut .w64 s t ∧
      SeriesSubRule a b m r) ∧
  (∀ a b m : BitVec 8, m = 0 → ∃ t,
    exec (.seriesSub8 a b m) s = .next t ∧ t.u8.ShowsFault ⟨5, a, b, m⟩ .zeroModulus ∧ SameBut .w8 s t) ∧
  (∀ a b m : BitVec 16, m = 0 → ∃ t,
    exec (.seriesSub16 a b m) s = .next t ∧ t.u16.ShowsFault ⟨5, a, b, m⟩ .zeroModulus ∧ SameBut .w16 s t) ∧
  (∀ a b m : BitVec 32, m = 0 → ∃ t,
    exec (.seriesSub32 a b m) s = .next t ∧ t.u32.ShowsFault ⟨5, a, b, m⟩ .zeroModulus ∧ SameBut .w32 s t) ∧
  (∀ a b m : BitVec 64, m = 0 → ∃ t,
    exec (.seriesSub64 a b m) s = .next t ∧ t.u64.ShowsFault ⟨5, a, b, m⟩ .zeroModulus ∧ SameBut .w64 s t)

/-- SERIES_MOD (43_series.md R92) in every state, at every width, whatever `b` holds. -/
def Obligations.SeriesModResult : Prop :=
  ∀ s : State,
  (∀ a b m : BitVec 8, m ≠ 0 → ∃ t r,
    exec (.seriesMod8 a b m) s = .next t ∧ t.u8.Shows ⟨6, a, b, m⟩ r false ∧ SameBut .w8 s t ∧
      SeriesModRule a m r) ∧
  (∀ a b m : BitVec 16, m ≠ 0 → ∃ t r,
    exec (.seriesMod16 a b m) s = .next t ∧ t.u16.Shows ⟨6, a, b, m⟩ r false ∧ SameBut .w16 s t ∧
      SeriesModRule a m r) ∧
  (∀ a b m : BitVec 32, m ≠ 0 → ∃ t r,
    exec (.seriesMod32 a b m) s = .next t ∧ t.u32.Shows ⟨6, a, b, m⟩ r false ∧ SameBut .w32 s t ∧
      SeriesModRule a m r) ∧
  (∀ a b m : BitVec 64, m ≠ 0 → ∃ t r,
    exec (.seriesMod64 a b m) s = .next t ∧ t.u64.Shows ⟨6, a, b, m⟩ r false ∧ SameBut .w64 s t ∧
      SeriesModRule a m r) ∧
  (∀ a b m : BitVec 8, m = 0 → ∃ t,
    exec (.seriesMod8 a b m) s = .next t ∧ t.u8.ShowsFault ⟨6, a, b, m⟩ .zeroModulus ∧ SameBut .w8 s t) ∧
  (∀ a b m : BitVec 16, m = 0 → ∃ t,
    exec (.seriesMod16 a b m) s = .next t ∧ t.u16.ShowsFault ⟨6, a, b, m⟩ .zeroModulus ∧ SameBut .w16 s t) ∧
  (∀ a b m : BitVec 32, m = 0 → ∃ t,
    exec (.seriesMod32 a b m) s = .next t ∧ t.u32.ShowsFault ⟨6, a, b, m⟩ .zeroModulus ∧ SameBut .w32 s t) ∧
  (∀ a b m : BitVec 64, m = 0 → ∃ t,
    exec (.seriesMod64 a b m) s = .next t ∧ t.u64.ShowsFault ⟨6, a, b, m⟩ .zeroModulus ∧ SameBut .w64 s t)

/-- The reserved code (60_exceptions.md R106, 30_encoding.md R49) in every state, at every width, whatever the operands hold, a zero
`m` too (R109): its own effect is to take the ILLEGAL_OP fault, and the machine goes on. -/
def Obligations.ReservedCodeFaults : Prop :=
  ∀ s : State,
  (∀ a b m : BitVec 8, ∃ t,
    exec (.reserved8 a b m) s = .next t ∧ t.u8.ShowsFault ⟨7, a, b, m⟩ .illegalOp ∧ SameBut .w8 s t) ∧
  (∀ a b m : BitVec 16, ∃ t,
    exec (.reserved16 a b m) s = .next t ∧ t.u16.ShowsFault ⟨7, a, b, m⟩ .illegalOp ∧ SameBut .w16 s t) ∧
  (∀ a b m : BitVec 32, ∃ t,
    exec (.reserved32 a b m) s = .next t ∧ t.u32.ShowsFault ⟨7, a, b, m⟩ .illegalOp ∧ SameBut .w32 s t) ∧
  (∀ a b m : BitVec 64, ∃ t,
    exec (.reserved64 a b m) s = .next t ∧ t.u64.ShowsFault ⟨7, a, b, m⟩ .illegalOp ∧ SameBut .w64 s t)

/-- Every evaluation completes (20_memory.md R39), its response is `Exec_W` of its request (00_scope.md R12) whatever happened
before (R37), and nothing but the ports of its own instance changes (10_state.md R29). -/
def Obligations.EveryInstructionCompletes : Prop :=
  ∀ (i : Instr) (s : State), ∃ t, exec i s = .next t ∧ t.output i.request.width = some (answerOf i.request) ∧
    SameBut i.request.width s t

/-- The inverse law of the rotary family (41_rotary.md R76), in both forms; the spec marks the second as its own derivation. -/
def Obligations.RotaryInverse : Prop :=
  ∀ (wd : Width) (a b m m' : BitVec wd.bits), ∃ x y,
    ask .rotaryAdd a b m = .ok x false ∧ ask .rotarySub x b m' = .ok a false ∧
    ask .rotarySub a b m = .ok y false ∧ ask .rotaryAdd y b m' = .ok a false

/-- The identities of 41_rotary.md R78, which the spec marks as derived. -/
def Obligations.RotaryIdentities : Prop :=
  ∀ (wd : Width) (a b c m : BitVec wd.bits),
    ask .rotaryAdd a b m = ask .rotaryAdd b a m ∧
    (∃ x y z, ask .rotaryAdd a b m = .ok x false ∧ ask .rotaryAdd b c m = .ok y false ∧
      ask .rotaryAdd x c m = .ok z false ∧ ask .rotaryAdd a y m = .ok z false) ∧
    (∃ x, ask .rotarySub 0 b m = .ok x false ∧ ask .rotarySub a b m = ask .rotaryAdd a x m) ∧
    ask .rotarySub a a m = .ok 0 false ∧ ask .rotaryAdd a 0 m = .ok a false ∧
    ask .rotarySub a 0 m = .ok a false

/-- The inverse law of the cycle family (42_cycle.md R83, 90_conflicts.md C2), with what the compositions give outside its
domain; the spec marks it as derived. -/
def Obligations.CycleInverse : Prop :=
  ∀ (wd : Width) (a b base : BitVec wd.bits), base ≠ 0 → ∃ x y z,
    ask .cycleAdd a b base = .ok x false ∧ ask .cycleSub x b base = .ok z false ∧
    ask .cycleSub a b base = .ok y false ∧ ask .cycleAdd y b base = .ok z false ∧
    z.toNat = a.toNat % base.toNat ∧ (a < base → z = a) ∧ (base ≤ a → z ≠ a)

/-- Reducing an operand first does not change a cycle result (42_cycle.md R84); the spec marks it as derived. -/
def Obligations.CycleReducesOperands : Prop :=
  ∀ (wd : Width) (a b base a' b' : BitVec wd.bits), base ≠ 0 →
    a'.toNat = a.toNat % base.toNat → b'.toNat = b.toNat % base.toNat →
    ask .cycleAdd a b' base = ask .cycleAdd a b base ∧ ask .cycleSub a b' base = ask .cycleSub a b base ∧
    ask .cycleAdd a' b' base = ask .cycleAdd a b base ∧ ask .cycleSub a' b' base = ask .cycleSub a b base

/-- The identities of 42_cycle.md R86, which the spec marks as derived. -/
def Obligations.CycleIdentities : Prop :=
  ∀ (wd : Width) (a b base : BitVec wd.bits), base ≠ 0 →
    ask .cycleAdd a b base = ask .cycleAdd b a base ∧
    (∃ x, x.toNat = a.toNat % base.toNat ∧ ask .cycleAdd a 0 base = .ok x false ∧
      ask .cycleSub a 0 base = .ok x false) ∧
    ask .cycleSub a a base = .ok 0 false ∧
    ask .cycleAdd a b 1 = .ok 0 false ∧ ask .cycleSub a b 1 = .ok 0 false ∧
    (∃ x, ask .cycleSub 0 b base = .ok x false ∧ ask .cycleSub a b base = ask .cycleAdd a x base)

/-- The inverse law of the series family (43_series.md R94, 90_conflicts.md C2), with what the compositions give for `a` outside
[1, limit]; the spec marks it as derived. -/
def Obligations.SeriesInverse : Prop :=
  ∀ (wd : Width) (a b c limit : BitVec wd.bits), limit ≠ 0 → ∃ x y z pv,
    ask .seriesAdd a b limit = .ok x pv ∧ ask .seriesSub x b limit = .ok z false ∧
    ask .seriesSub a b limit = .ok y pv ∧ ask .seriesAdd y b limit = .ok z false ∧
    ask .seriesMod a c limit = .ok z false ∧ (pv = true ↔ a = 0 ∨ limit < a) ∧ (pv = false ↔ z = a)

/-- The boundary of SERIES_MOD (43_series.md R95): a multiple of the limit is the limit itself, never 0. -/
def Obligations.SeriesModBoundary : Prop :=
  ∀ (wd : Width) (b limit : BitVec wd.bits), limit ≠ 0 →
    ask .seriesMod limit b limit = .ok limit false ∧ ask .seriesMod 0 b limit = .ok limit false

/-- A series operation is the cycle operation with the residue 0 renamed `limit` (43_series.md R96); the spec marks it as derived. -/
def Obligations.SeriesIsCycleRenamed : Prop :=
  ∀ (wd : Width) (a b limit : BitVec wd.bits), limit ≠ 0 → ∃ x y z pv,
    ask .cycleAdd a b limit = .ok x false ∧ ask .seriesAdd a b limit = .ok (seriesFix x limit) pv ∧
    ask .cycleSub a b limit = .ok y false ∧ ask .seriesSub a b limit = .ok (seriesFix y limit) pv ∧
    ask .seriesMod a b limit = .ok (seriesFix z limit) false ∧ z.toNat = a.toNat % limit.toNat ∧
    ((seriesFix z limit).toNat : ℤ) = ((a.toNat : ℤ) - 1) % limit.toNat + 1 ∧
    (seriesFix x limit).toNat =
      (if (a.toNat + b.toNat) % limit.toNat = 0 then limit.toNat else (a.toNat + b.toNat) % limit.toNat)

/-- The identities of 43_series.md R99, which the spec marks as derived. -/
def Obligations.SeriesIdentities : Prop :=
  ∀ (wd : Width) (a b c x limit : BitVec wd.bits), limit ≠ 0 →
    (a ≠ 0 → a ≤ limit →
      ask .seriesAdd a 0 limit = .ok a false ∧ ask .seriesSub a 0 limit = .ok a false ∧
      ask .seriesMod a b limit = .ok a false ∧ ask .seriesAdd a limit limit = .ok a false ∧
      ask .seriesSub a limit limit = .ok a false ∧ ask .seriesSub a a limit = .ok limit false) ∧
    ask .seriesAdd limit 1 limit = .ok 1 false ∧ ask .seriesSub 1 1 limit = .ok limit false ∧
    (∃ y, ask .seriesMod x b limit = .ok y false ∧ ask .seriesMod y c limit = .ok y false) ∧
    (∃ p, ask .seriesAdd a b 1 = .ok 1 p ∧ ask .seriesSub a b 1 = .ok 1 p ∧ ask .seriesMod a b 1 = .ok 1 false) ∧
    (∃ r p p', ask .seriesAdd a b limit = .ok r p ∧ ask .seriesAdd b a limit = .ok r p' ∧
      (p = true ↔ a = 0 ∨ limit < a) ∧ (p' = true ↔ b = 0 ∨ limit < b))

/-- Closure (41_rotary.md R74, 42_cycle.md R82, 43_series.md R93), at every width and also where `pv` is 1; the spec marks the three
as derived. -/
def Obligations.ResultsLieInRange : Prop :=
  ∀ (wd : Width) (q : Request wd.bits) (r : BitVec wd.bits) (pv : Bool), evaluate q = .ok r pv →
    q.op ≠ 7 ∧ r.toNat ≤ maxValue wd.bits ∧ (q.op = 2 ∨ q.op = 3 → r.toNat ≤ q.m.toNat - 1 ∧ 1 ≤ q.m.toNat) ∧
      (q.op = 4 ∨ q.op = 5 ∨ q.op = 6 → 1 ≤ r.toNat ∧ r.toNat ≤ q.m.toNat)

/-- SERIES_ADD and SERIES_SUB with `a` outside [1, limit] (43_series.md R97, the spec's own decision D13; log entry 8): the result is
that of SERIES_MOD(a, limit) in place of `a`, and `pv` is 1. -/
def Obligations.ViolatedPreconditionResult : Prop :=
  ∀ (wd : Width) (a b c limit : BitVec wd.bits), limit ≠ 0 → (a = 0 ∨ limit < a) → ∃ v x y,
    ask .seriesMod a c limit = .ok v false ∧ (a = 0 → v = limit) ∧
    ask .seriesAdd a b limit = .ok x true ∧ ask .seriesAdd v b limit = .ok x false ∧
    ask .seriesSub a b limit = .ok y true ∧ ask .seriesSub v b limit = .ok y false

/-- The two fault causes and nothing else (60_exceptions.md R104 to R106), for every W: when each is raised, that it does not
depend on `a` and `b`, and the code on the `cause` port. -/
def Obligations.FaultConditions : Prop :=
  ∀ (w : Nat) (q : Request w),
    (evaluate q = .fault .illegalOp ↔ q.op = 7) ∧
    (evaluate q = .fault .zeroModulus ↔
      (q.op = 2 ∨ q.op = 3 ∨ q.op = 4 ∨ q.op = 5 ∨ q.op = 6) ∧ q.m = 0) ∧
    ((evaluate q).ports.fault = 0 ↔ (evaluate q).ports.cause = 0b00) ∧
    ((evaluate q).ports.cause = 0b01 ↔ evaluate q = .fault .zeroModulus) ∧
    ((evaluate q).ports.cause = 0b10 ↔ evaluate q = .fault .illegalOp) ∧
    (evaluate q).ports.cause ≠ 0b11

/-- The advisory bit (60_exceptions.md R112), for the instance of every width. -/
def Obligations.PvConditions : Prop :=
  ∀ (wd : Width) (q : Request wd.bits),
    ((evaluate q).ports.pv = 1 ↔
      (evaluate q).ports.fault = 0 ∧ (q.op = 4 ∨ q.op = 5) ∧ (q.a = 0 ∨ q.m < q.a)) ∧
    ((evaluate q).ports.pv = 1 → ∃ r, evaluate q = .ok r true ∧ 1 ≤ r.toNat ∧ r.toNat ≤ q.m.toNat ∧
      (q.op = 4 → (r.toNat : ℤ) = ((q.a.toNat : ℤ) - 1 + q.b.toNat) % q.m.toNat + 1) ∧
      (q.op = 5 → (r.toNat : ℤ) = ((q.a.toNat : ℤ) - 1 - q.b.toNat) % q.m.toNat + 1))

/-- The order of the conditions (60_exceptions.md R109): the reserved code is reported before a zero `m`, and a fault leaves `pv` 0. -/
def Obligations.FaultPriority : Prop :=
  ∀ (w : Nat) (a b m : BitVec w),
    ask .reserved a b 0 = .fault .illegalOp ∧ ask .seriesAdd 0 b (0 : BitVec w) = .fault .zeroModulus ∧
    (ask .seriesAdd 0 b (0 : BitVec w)).ports.pv = 0 ∧
    (∀ q : Request w, (evaluate q).ports.fault = 1 → (evaluate q).ports.pv = 0 ∧ (evaluate q).ports.r = 0 ∧
      (evaluate q).result? = none) ∧
    (∀ o : Op, ask o a b m = .fault .illegalOp → o = .reserved)

/-- Inputs an operation does not read have no effect on any output (10_state.md R16, 30_encoding.md R48), for every W. -/
def Obligations.UnreadInputsDoNotMatter : Prop :=
  ∀ (w : Nat) (q q' : Request w), q.op = q'.op →
    (readsA (Op.ofCode q.op) = true → q.a = q'.a) → (readsB (Op.ofCode q.op) = true → q.b = q'.b) →
    (readsM (Op.ofCode q.op) = true → q.m = q'.m) →
    evaluate q = evaluate q' ∧ (evaluate q).ports = (evaluate q').ports

/-- No ordering between requests (20_memory.md R37, 10_state.md R29): two instructions in either order give the same responses,
and requests to different instances give the same state. -/
def Obligations.RequestsAreIndependent : Prop :=
  ∀ (i j : Instr) (s : State), ∃ t t' u u',
    exec i s = .next t ∧ exec j t = .next u ∧ exec j s = .next t' ∧ exec i t' = .next u' ∧
    t.output i.request.width = u'.output i.request.width ∧ t'.output j.request.width = u.output j.request.width ∧
    (i.request.width ≠ j.request.width →
      u = u' ∧ u.output i.request.width = t.output i.request.width)

/-- An evaluation may be repeated any number of times with the same response (20_memory.md R34). -/
def Obligations.EvaluationIsIdempotent : Prop :=
  ∀ (i : Instr) (s t : State), exec i s = .next t → exec i t = .next t

/-- A fault is not sticky (60_exceptions.md R111): after any history, a request that meets no fault condition is answered with a
result and `fault` = 0, and does not change the host's record. -/
def Obligations.FaultIsNotSticky : Prop :=
  ∀ (s : State) (i : Instr) (x : Sampled) (c : Cause), s.output i.request.width = some x → x.cause? = some c →
    i.request.MeetsNoFault →
    ∃ t y v, exec i s = .next t ∧ t.output i.request.width = some y ∧ y.cause? = none ∧ y.result? = some v ∧
      t.faultRecord = s.faultRecord

/-- The machine at the start: no input is driven and no output has a value (10_state.md R27, 70_reset_and_hazards.md R124, R125), and
the host has no request loaded, no response and no fault recorded (95_test_vectors.md section 7; log entries 3, 4 and 6). -/
def Obligations.ResetState : Prop :=
  State.reset.u8 = ⟨⟨none, none, none, none⟩, none⟩ ∧ State.reset.u16 = ⟨⟨none, none, none, none⟩, none⟩ ∧
  State.reset.u32 = ⟨⟨none, none, none, none⟩, none⟩ ∧ State.reset.u64 = ⟨⟨none, none, none, none⟩, none⟩ ∧
  State.reset.run = ⟨[], []⟩ ∧ State.reset.faultRecord = [] ∧ State.reset.FaultFree

/-- The invariant of OutputsFollowInputs holds at the start. -/
def Obligations.ResetIsSettled : Prop :=
  State.reset.Settled

/-- The outputs are a function of the present inputs and of nothing else (10_state.md R19), and unspecified exactly while an
input is undriven (70_reset_and_hazards.md R125): an invariant of every step. In states no run reaches a step of the host that presents
a request to one instance leaves the others alone, so the premise is needed; where the script is empty it is not. -/
def Obligations.OutputsFollowInputs : Prop :=
  (∀ s t : State, s.Settled → step s = .next t → t.Settled) ∧
  (∀ s t : State, s.run.script = [] → step s = .next t → t.Settled) ∧
  (∀ (i : Instr) (s t : State), s.Settled → exec i s = .next t → t.Settled)

/-- A step runs the decoded instruction: when the script's head resolves to a request, the step is exec of the instruction the
decoder reads from it, at the state with the head taken off the script, after which the host samples the response of the
addressed instance and appends it to its list (30_encoding.md R52, 70_reset_and_hazards.md R133; log entries 3 and 9). -/
def Obligations.StepRunsTheDecodedRequest : Prop :=
  ∀ (s : State) (e : Entry) (rest : List Entry) (p : Presented), s.run.script = e :: rest →
    resolve e s.run.responses = .ok p →
    ∃ t x, exec (decode p) { s with run := ⟨rest, s.run.responses⟩ } = .next t ∧ t.output p.width = some x ∧
      step s = .next { t with run := ⟨rest, s.run.responses ++ [x]⟩ }

/-- With nothing to present, a step changes no input and no part of the run, and the outputs settle to their inputs
(70_reset_and_hazards.md R125, R133; log entry 4). -/
def Obligations.IdleStepSettles : Prop :=
  (∀ s : State, s.run.script = [] → ∃ t, step s = .next t ∧ t.run = s.run ∧
    t.u8.inp = s.u8.inp ∧ t.u16.inp = s.u16.inp ∧ t.u32.inp = s.u32.inp ∧ t.u64.inp = s.u64.inp ∧ t.Settled) ∧
  (∀ (w : Nat) (u : Wau w), u.Settled ↔
    (∀ op a b m, u.inp = ⟨some op, some a, some b, some m⟩ → u.out = some (evaluate ⟨op, a, b, m⟩)) ∧
    (u.inp.op = none ∨ u.inp.a = none ∨ u.inp.b = none ∨ u.inp.m = none → u.out = none))

/-- The WAU never stops (70_reset_and_hazards.md R133): in no state does a step end in a machine fault. What can end a step is only
the host's own rejection of its script's head. -/
def Obligations.StepNeverFaults : Prop :=
  (∀ (s : State) (f : Fault), step s ≠ .fault f) ∧
  (∀ (s : State) (why : Refusal), step s = .refused why →
    ∃ e rest, s.run.script = e :: rest ∧ resolve e s.run.responses = .error why ∧ ∀ n, why ≠ .notModelled n)

/-- A run (70_reset_and_hazards.md R133): from any state, presenting any sequence of requests takes one step each and ends with the
responses Exec_W(q1) .. Exec_W(qn) appended in order to those sampled before; and so it does where later requests are built from
earlier results. A run in which an entry gives no request ends in the host's rejection of it. -/
def Obligations.RunAnswersEveryRequest : Prop :=
  (∀ (qs : List Presented) (s : State), s.run.script = qs.map Presented.entry →
    ∃ t : State, Host.Core.run Sys2Proof.core qs.length s = .next t ∧ t.run.script = [] ∧
      t.run.responses = s.run.responses ++ qs.map answerOf) ∧
  (∀ (es : List Entry) (s : State) (rs : List Sampled), s.run.script = es → answers s.run.responses es = .ok rs →
    ∃ t : State, Host.Core.run Sys2Proof.core es.length s = .next t ∧ t.run.script = [] ∧ t.run.responses = rs) ∧
  (∀ (es : List Entry) (s : State) (why : Refusal), s.run.script = es → answers s.run.responses es = .error why →
    Host.Core.run Sys2Proof.core es.length s = .refused why)

/-- The host keeps every fault of a run (60_exceptions.md R121): a step appends at most one response, never drops one, and never
clears the fault mark; the record grows by exactly the fault the step met, whether its request is written with literals or with
results of earlier requests. -/
def Obligations.FaultRecordIsKept : Prop :=
  (∀ s t : State, step s = .next t → ∃ l : List Sampled, l.length ≤ 1 ∧
    t.run.responses = s.run.responses ++ l ∧ t.faultRecord = s.faultRecord ++ l.filterMap Sampled.cause? ∧
    (s.faultMark = true → t.faultMark = true)) ∧
  (∀ (s : State) (e : Entry) (p : Presented) (rest : List Entry) (c : Cause), s.run.script = e :: rest →
    resolve e s.run.responses = .ok p → (answerOf p).cause? = some c →
    ∃ t, step s = .next t ∧ t.faultRecord = s.faultRecord ++ [c] ∧ t.faultMark = true)

/-- What the host drives for the operands of a script entry (30_encoding.md R52): a literal as it stands, `$n` as the `r` of the n-th
request; and the whole next state of the step that presents them. That `$n` may name a result of another instance, if it fits, is
the model's choice (log entry 7). -/
def Obligations.ResultSubstitution : Prop :=
  (∀ (w : Nat) (rs : List Sampled) (v : Nat), v < 2 ^ w → operandValue w rs (.lit v) = .ok (BitVec.ofNat w v)) ∧
  (∀ (w : Nat) (rs : List Sampled) (n v : Nat) (x : Sampled), rs[n]? = some x → x.result? = some v → v < 2 ^ w →
    operandValue w rs (.result (n + 1)) = .ok (BitVec.ofNat w v)) ∧
  (∀ (s : State) (op : BitVec 3) (x y z : Operand) (a b m : BitVec 8) (rest : List Entry),
    s.run.script = ⟨.w8, op, x, y, z⟩ :: rest → operandValue 8 s.run.responses x = .ok a →
    operandValue 8 s.run.responses y = .ok b → operandValue 8 s.run.responses z = .ok m →
    step s = .next { s with
      u8 := ⟨⟨some op, some a, some b, some m⟩, some (evaluate ⟨op, a, b, m⟩)⟩
      run := ⟨rest, s.run.responses ++ [.r8 (evaluate ⟨op, a, b, m⟩)]⟩ }) ∧
  (∀ (s : State) (op : BitVec 3) (x y z : Operand) (a b m : BitVec 16) (rest : List Entry),
    s.run.script = ⟨.w16, op, x, y, z⟩ :: rest → operandValue 16 s.run.responses x = .ok a →
    operandValue 16 s.run.responses y = .ok b → operandValue 16 s.run.responses z = .ok m →
    step s = .next { s with
      u16 := ⟨⟨some op, some a, some b, some m⟩, some (evaluate ⟨op, a, b, m⟩)⟩
      run := ⟨rest, s.run.responses ++ [.r16 (evaluate ⟨op, a, b, m⟩)]⟩ }) ∧
  (∀ (s : State) (op : BitVec 3) (x y z : Operand) (a b m : BitVec 32) (rest : List Entry),
    s.run.script = ⟨.w32, op, x, y, z⟩ :: rest → operandValue 32 s.run.responses x = .ok a →
    operandValue 32 s.run.responses y = .ok b → operandValue 32 s.run.responses z = .ok m →
    step s = .next { s with
      u32 := ⟨⟨some op, some a, some b, some m⟩, some (evaluate ⟨op, a, b, m⟩)⟩
      run := ⟨rest, s.run.responses ++ [.r32 (evaluate ⟨op, a, b, m⟩)]⟩ }) ∧
  (∀ (s : State) (op : BitVec 3) (x y z : Operand) (a b m : BitVec 64) (rest : List Entry),
    s.run.script = ⟨.w64, op, x, y, z⟩ :: rest → operandValue 64 s.run.responses x = .ok a →
    operandValue 64 s.run.responses y = .ok b → operandValue 64 s.run.responses z = .ok m →
    step s = .next { s with
      u64 := ⟨⟨some op, some a, some b, some m⟩, some (evaluate ⟨op, a, b, m⟩)⟩
      run := ⟨rest, s.run.responses ++ [.r64 (evaluate ⟨op, a, b, m⟩)]⟩ })

/-- The zero on `r` under a fault is never carried into a later computation (70_reset_and_hazards.md R128, 60_exceptions.md R121): an
operand that names a faulted response is rejected, and so is one that names no response or does not fit the port (R127); and a step
whose entry holds such an operand is refused. The order in which several are reported is the model's choice (log entry 7). -/
def Obligations.FaultedResultIsNeverUsed : Prop :=
  (∀ (w : Nat) (rs : List Sampled) (n : Nat) (x : Sampled) (c : Cause), rs[n]? = some x → x.cause? = some c →
    operandValue w rs (.result (n + 1)) = .error (.faultedResponse (n + 1))) ∧
  (∀ (w : Nat) (rs : List Sampled) (n : Nat), rs.length ≤ n →
    operandValue w rs (.result (n + 1)) = .error (.noSuchResponse (n + 1))) ∧
  (∀ (w : Nat) (rs : List Sampled), operandValue w rs (.result 0) = .error (.noSuchResponse 0)) ∧
  (∀ (w : Nat) (rs : List Sampled) (v : Nat), 2 ^ w ≤ v → operandValue w rs (.lit v) = .error (.valueTooWide v)) ∧
  (∀ (w : Nat) (rs : List Sampled) (n v : Nat) (x : Sampled), rs[n]? = some x → x.result? = some v → 2 ^ w ≤ v →
    operandValue w rs (.result (n + 1)) = .error (.valueTooWide v)) ∧
  (∀ (s : State) (e : Entry) (rest : List Entry) (why : Refusal), s.run.script = e :: rest →
    operandValue e.width.bits s.run.responses e.a = .error why → step s = .refused why) ∧
  (∀ (s : State) (e : Entry) (rest : List Entry) (why : Refusal) (a : BitVec e.width.bits),
    s.run.script = e :: rest → operandValue e.width.bits s.run.responses e.a = .ok a →
    operandValue e.width.bits s.run.responses e.b = .error why → step s = .refused why) ∧
  (∀ (s : State) (e : Entry) (rest : List Entry) (why : Refusal) (a b : BitVec e.width.bits),
    s.run.script = e :: rest → operandValue e.width.bits s.run.responses e.a = .ok a →
    operandValue e.width.bits s.run.responses e.b = .ok b →
    operandValue e.width.bits s.run.responses e.m = .error why → step s = .refused why)

/-- A table word placed where the next request is taken from is exactly what the next step runs (log entry 5). -/
def Obligations.LoadedWordRunsNext : Prop :=
  (∀ (s : State) (nbits w : Nat) (i : Instr), decodeTableWord nbits w = some i →
    ∃ t x, exec i s = .next t ∧ t.output i.request.width = some x ∧
      step (s.withFetchWord nbits w) = .next { t with run := ⟨s.run.script, s.run.responses ++ [x]⟩ }) ∧
  (∀ w : Nat, (∃ i, decodeTableWord 32 w = some i) ∧ (∃ i, decodeTableWord 56 w = some i) ∧
    (∃ i, decodeTableWord 104 w = some i) ∧ (∃ i, decodeTableWord 200 w = some i))

/-- Canonical encoding (30_encoding.md R52, R53), line by line: what the assembler writes in the don't-care fields, which
instructions are disassembled to a line with their mnemonic, that assembling that line gives the instruction's own request, and, for
every line and every operand, that a literal which does not fit is an error and that nothing else is. The spec marks R53 as derived.
That an operation code of 8 or more is an error, and which literal is reported, is the model's choice (log entry 11). -/
def Obligations.DisassemblyReassembles : Prop :=
  (∀ i : Instr, assemble (disassemble i) = .ok i.request.entry ∧
    ((disassemble i).isRaw = false ↔ i.canonical = true)) ∧
  (∀ (wd : Width) (a b : Operand) (e : Entry),
    (assemble (.rotaryAdd wd a b) = .ok e → e.m = .lit 0) ∧ (assemble (.rotarySub wd a b) = .ok e → e.m = .lit 0) ∧
    (assemble (.seriesMod wd a b) = .ok e → e.b = .lit 0)) ∧
  (∀ (l : AsmLine) (v : Nat), .lit v ∈ l.operands → 2 ^ l.width.bits ≤ v → l.code < 8 →
    ∃ u, assemble l = .error (.literalTooWide u) ∧ .lit u ∈ l.operands ∧ 2 ^ l.width.bits ≤ u) ∧
  (∀ l : AsmLine, 8 ≤ l.code → assemble l = .error (.literalTooWide l.code)) ∧
  (∀ l : AsmLine, (∀ v, .lit v ∈ l.operands → v < 2 ^ l.width.bits) → l.code < 8 → ∃ e : Entry, assemble l = .ok e ∧
    e.width = l.width ∧ e.op.toNat = l.code)

/-- Serialised responses (20_memory.md R32, 30_encoding.md R44, R55): 2, 3, 5 or 9 bytes, least significant first and padded with 0;
the response of every request is read back from its bytes; whatever bytes are read as a response are its own up to the padding,
which is ignored; and bytes are refused exactly when their length is wrong or their word is no request's response. -/
def Obligations.ResponseBytes : Prop :=
  rspBytes .w8 = 2 ∧ rspBytes .w16 = 3 ∧ rspBytes .w32 = 5 ∧ rspBytes .w64 = 9 ∧
  (∀ y : Sampled, y.bytes.length = rspBytes y.width ∧ ofBytes y.bytes = y.word ∧
    ∀ j, j < rspBytes y.width → y.bytes[j]? = some (BitVec.ofNat 8 (y.word / 256 ^ j))) ∧
  (∀ p : Presented, (answerOf p).width = p.width ∧ responseOfBytes p.width (answerOf p).bytes = .ok (answerOf p)) ∧
  (∀ (wd : Width) (bs : List Byte) (y : Sampled), responseOfBytes wd bs = .ok y →
    y.width = wd ∧ y.bytes.length = bs.length ∧ y.word = ofBytes bs % 2 ^ Config.rspWidth wd.bits ∧
      ∃ p : Presented, p.width = wd ∧ answerOf p = y) ∧
  (∀ (wd : Width) (bs : List Byte), responseOfBytes wd bs = .error .wrongLength ↔ bs.length ≠ rspBytes wd) ∧
  (∀ (wd : Width) (bs : List Byte), responseOfBytes wd bs = .error .neverProduced ↔
    bs.length = rspBytes wd ∧
      ∀ p : Presented, p.width = wd → (answerOf p).word ≠ ofBytes bs % 2 ^ Config.rspWidth wd.bits)

/-- A line of 30_encoding.md R52, written as text and read again, is the line, whatever its operands; hence the text printed for any
instruction assembles to the instruction's own request (R53, which the spec marks as derived). How text is read beyond R52 is the
model's choice (log entry 11). -/
def Obligations.PrintedTextReadsBack : Prop :=
  (∀ l : AsmLine, readLine l.spell = some l) ∧
  (∀ i : Instr, assembleText (disassemble i).spell = .ok i.request.entry)
end

