-- ==== Sys2Proof/Laws/Asm.lean ====
section
/-! SUPPORT. Laws/Asm.lean: what the parts of the assembler do: the literals of a line against their field, cutting a text, reading
digits (spec 30_encoding.md R52). -/

namespace Sys2Proof

theorem tooWide_of_fits {w : Nat} {l : List Operand} (h : ∀ v, .lit v ∈ l → v < 2 ^ w) : tooWide w l = none := by
  induction l with
  | nil => rfl
  | cons x xs ih =>
    have hxs := ih fun v hv => h v (List.mem_cons_of_mem _ hv)
    cases x with
    | lit v => rw [tooWide, if_pos (h v List.mem_cons_self), hxs]
    | result n => rw [tooWide, hxs]

/-- A literal that is reported as too wide is one of the line's and does not fit. -/
theorem tooWide_some {w u : Nat} {l : List Operand} (h : tooWide w l = some u) : .lit u ∈ l ∧ 2 ^ w ≤ u := by
  induction l with
  | nil => cases h
  | cons x xs ih =>
    cases x with
    | lit v =>
      rw [tooWide] at h
      split at h
      · exact ⟨List.mem_cons_of_mem _ (ih h).1, (ih h).2⟩
      · rename_i hv
        cases h
        exact ⟨List.mem_cons_self, Nat.le_of_not_lt hv⟩
    | result n => exact ⟨List.mem_cons_of_mem _ (ih h).1, (ih h).2⟩

/-- An entry whose operands all fit is that entry. -/
theorem checkedEntry_of_fits {wd : Width} {a b m : Operand} (op : BitVec 3)
    (h : ∀ v, .lit v ∈ [a, b, m] → v < 2 ^ wd.bits) : checkedEntry wd op a b m = .ok ⟨wd, op, a, b, m⟩ := by
  simp only [checkedEntry, tooWide_of_fits h]

/-- A text without the separator is one piece. -/
theorem cutAt_of_not_mem {c : Char} {l : List Char} (h : ∀ x ∈ l, x ≠ c) : cutAt c l = [l] := by
  induction l with
  | nil => rfl
  | cons x l ih =>
    rw [cutAt, ih fun y hy => h y (List.mem_cons_of_mem _ hy)]
    simp [h x List.mem_cons_self]

/-- Reading digits after digits. -/
theorem readDigits_append (base acc : Nat) (xs ys : List Char) :
    readDigits base acc (xs ++ ys) = (readDigits base acc xs).bind fun v => readDigits base v ys := by
  induction xs generalizing acc with
  | nil => rfl
  | cons c xs ih =>
    simp only [List.cons_append, readDigits]
    cases digitValue base c <;> simp [ih]

end Sys2Proof
end

