-- ==== Sys2Proof/Laws/Coding.lean ====
section
/-! SUPPORT. Laws/Coding.lean: the packed words as numbers: concatenation as a sum, REQ and RSP, and their bytes (spec 20_memory.md
R32, 30_encoding.md R43, R44). -/

namespace Sys2Proof

theorem append_toNat {m n : Nat} (x : BitVec m) (y : BitVec n) :
    (x ++ y).toNat = x.toNat * 2 ^ n + y.toNat := by
  rw [BitVec.toNat_append, ← Nat.shiftLeft_add_eq_or_of_lt y.isLt, Nat.shiftLeft_eq]

/-- The packed request word as a sum of its fields. -/
theorem Request.word_toNat {w : Nat} (q : Request w) :
    q.word.toNat = ((q.op.toNat * 2 ^ w + q.m.toNat) * 2 ^ w + q.b.toNat) * 2 ^ w + q.a.toNat := by
  simp only [Request.word, BitVec.toNat_cast, append_toNat]

/-- The packed form of four port values as a sum. -/
theorem OutPorts.word_toNat {w : Nat} (o : OutPorts w) :
    o.word.toNat = ((o.pv.toNat * 2 ^ 2 + o.cause.toNat) * 2 ^ 1 + o.fault.toNat) * 2 ^ w + o.r.toNat := by
  simp only [OutPorts.word, BitVec.toNat_cast, append_toNat]

theorem toBytes_length (k x : Nat) : (toBytes k x).length = k := by
  induction k generalizing x with
  | zero => rfl
  | succ k ih => simp [toBytes, ih]

/-- A serialised response has the length of its instance's responses (R44). -/
theorem Sampled.bytes_length (y : Sampled) : y.bytes.length = rspBytes y.width := toBytes_length _ _

theorem Sampled.word_lt (y : Sampled) : y.word < 2 ^ Config.rspWidth y.width.bits := by
  cases y <;> exact BitVec.isLt _

/-- The bytes of a response hold its whole word. -/
theorem rspWidth_le_rspBytes (wd : Width) : 2 ^ Config.rspWidth wd.bits ≤ 256 ^ rspBytes wd := by
  cases wd <;> decide

end Sys2Proof
end

