-- ==== Sys2Proof/Laws/Datapath.lean ====
section
/-! SUPPORT. Laws/Datapath.lean: the parts of the datapath as numbers: what the promoter, the accumulator operations, the reducer,
the modulus selection and the final width do (spec 40_datapath.md R60 to R64, R71). -/

namespace Sys2Proof.Machine

theorem promote_toNat {w n : Nat} (h : w ≤ n) (v : BitVec w) : (promote n v).toNat = v.toNat := by
  rw [promote, BitVec.toNat_setWidth]
  exact Nat.mod_eq_of_lt (lt_of_lt_of_le v.isLt (Nat.pow_le_pow_right (by decide) h))

theorem nativeModulus_toNat (w : Nat) : (nativeModulus w).toNat = 2 ^ w := by
  rw [nativeModulus, BitVec.toNat_ofNat]
  exact Nat.mod_eq_of_lt (Nat.pow_lt_pow_right (by decide) (Nat.lt_succ_self w))

theorem portModulus_toNat {w : Nat} (m : BitVec w) : (portModulus m).toNat = m.toNat := by
  rw [portModulus, BitVec.toNat_setWidth]
  exact Nat.mod_eq_of_lt (lt_of_lt_of_le m.isLt (Nat.pow_le_pow_right (by decide) (Nat.le_succ w)))

theorem accAdd_toNat {n : Nat} {x y : BitVec n} (h : x.toNat + y.toNat < 2 ^ n) :
    (accAdd x y).toNat = x.toNat + y.toNat := by
  rw [accAdd, BitVec.toNat_add, Nat.mod_eq_of_lt h]

theorem accGe_iff {n : Nat} (x y : BitVec n) : accGe x y = true ↔ y.toNat ≤ x.toNat := by
  simp [accGe, BitVec.le_def]

theorem accSub_toNat {n : Nat} {x y : BitVec n} (h : y.toNat ≤ x.toNat) :
    (accSub x y).toNat = x.toNat - y.toNat := by
  rw [accSub, BitVec.toNat_sub_of_le (BitVec.le_def.mpr h)]

theorem reduce_toNat {n : Nat} (v M : BitVec n) : (reduce v M).toNat = v.toNat % M.toNat := by
  rw [reduce, BitVec.toNat_umod]

theorem seriesFix_toNat {n : Nat} (q L : BitVec n) :
    (seriesFix q L).toNat = if q.toNat = 0 then L.toNat else q.toNat := by
  rw [seriesFix]
  by_cases h : q = 0
  · simp [h]
  · have : q.toNat ≠ 0 := fun h0 => h (BitVec.eq_of_toNat_eq (by simpa using h0))
    rw [if_neg h, if_neg this]

/-- Driving a value that fits on the `r` port loses nothing (R71). -/
theorem driveResult_toNat {w n : Nat} {v : BitVec n} (h : v.toNat < 2 ^ w) :
    (driveResult w v).toNat = v.toNat := by
  rw [driveResult, BitVec.toNat_setWidth, Nat.mod_eq_of_lt h]

end Sys2Proof.Machine
end

