-- ==== Sys2Proof/Laws/State.lean ====
section
/-! SUPPORT. Laws/State.lean: what each update of State leaves in each field, so that no proof unfolds an update. -/

namespace Sys2Proof.Machine

@[simp] theorem State.answer8_u8 (s : State) (q : Request 8) (p : Response 8) :
    (s.answer8 q p).u8 = Wau.present q p := rfl

@[simp] theorem State.answer8_u16 (s : State) (q : Request 8) (p : Response 8) :
    (s.answer8 q p).u16 = s.u16 := rfl

@[simp] theorem State.answer8_u32 (s : State) (q : Request 8) (p : Response 8) :
    (s.answer8 q p).u32 = s.u32 := rfl

@[simp] theorem State.answer8_u64 (s : State) (q : Request 8) (p : Response 8) :
    (s.answer8 q p).u64 = s.u64 := rfl

@[simp] theorem State.answer8_run (s : State) (q : Request 8) (p : Response 8) :
    (s.answer8 q p).run = s.run := rfl

@[simp] theorem State.answer16_u8 (s : State) (q : Request 16) (p : Response 16) :
    (s.answer16 q p).u8 = s.u8 := rfl

@[simp] theorem State.answer16_u16 (s : State) (q : Request 16) (p : Response 16) :
    (s.answer16 q p).u16 = Wau.present q p := rfl

@[simp] theorem State.answer16_u32 (s : State) (q : Request 16) (p : Response 16) :
    (s.answer16 q p).u32 = s.u32 := rfl

@[simp] theorem State.answer16_u64 (s : State) (q : Request 16) (p : Response 16) :
    (s.answer16 q p).u64 = s.u64 := rfl

@[simp] theorem State.answer16_run (s : State) (q : Request 16) (p : Response 16) :
    (s.answer16 q p).run = s.run := rfl

@[simp] theorem State.answer32_u8 (s : State) (q : Request 32) (p : Response 32) :
    (s.answer32 q p).u8 = s.u8 := rfl

@[simp] theorem State.answer32_u16 (s : State) (q : Request 32) (p : Response 32) :
    (s.answer32 q p).u16 = s.u16 := rfl

@[simp] theorem State.answer32_u32 (s : State) (q : Request 32) (p : Response 32) :
    (s.answer32 q p).u32 = Wau.present q p := rfl

@[simp] theorem State.answer32_u64 (s : State) (q : Request 32) (p : Response 32) :
    (s.answer32 q p).u64 = s.u64 := rfl

@[simp] theorem State.answer32_run (s : State) (q : Request 32) (p : Response 32) :
    (s.answer32 q p).run = s.run := rfl

@[simp] theorem State.answer64_u8 (s : State) (q : Request 64) (p : Response 64) :
    (s.answer64 q p).u8 = s.u8 := rfl

@[simp] theorem State.answer64_u16 (s : State) (q : Request 64) (p : Response 64) :
    (s.answer64 q p).u16 = s.u16 := rfl

@[simp] theorem State.answer64_u32 (s : State) (q : Request 64) (p : Response 64) :
    (s.answer64 q p).u32 = s.u32 := rfl

@[simp] theorem State.answer64_u64 (s : State) (q : Request 64) (p : Response 64) :
    (s.answer64 q p).u64 = Wau.present q p := rfl

@[simp] theorem State.answer64_run (s : State) (q : Request 64) (p : Response 64) :
    (s.answer64 q p).run = s.run := rfl

@[simp] theorem State.record_u8 (s : State) (p : Sampled) : (s.record p).u8 = s.u8 := rfl

@[simp] theorem State.record_u16 (s : State) (p : Sampled) : (s.record p).u16 = s.u16 := rfl

@[simp] theorem State.record_u32 (s : State) (p : Sampled) : (s.record p).u32 = s.u32 := rfl

@[simp] theorem State.record_u64 (s : State) (p : Sampled) : (s.record p).u64 = s.u64 := rfl

@[simp] theorem State.record_run (s : State) (p : Sampled) : (s.record p).run = ⟨s.run.script, s.run.responses ++ [p]⟩ := rfl

@[simp] theorem State.withScript_u8 (s : State) (es : List Entry) : (s.withScript es).u8 = s.u8 := rfl

@[simp] theorem State.withScript_u16 (s : State) (es : List Entry) : (s.withScript es).u16 = s.u16 := rfl

@[simp] theorem State.withScript_u32 (s : State) (es : List Entry) : (s.withScript es).u32 = s.u32 := rfl

@[simp] theorem State.withScript_u64 (s : State) (es : List Entry) : (s.withScript es).u64 = s.u64 := rfl

@[simp] theorem State.withScript_run (s : State) (es : List Entry) : (s.withScript es).run = ⟨es, s.run.responses⟩ := rfl

@[simp] theorem State.settle_u8 (s : State) : s.settle.u8 = s.u8.settle := rfl

@[simp] theorem State.settle_u16 (s : State) : s.settle.u16 = s.u16.settle := rfl

@[simp] theorem State.settle_u32 (s : State) : s.settle.u32 = s.u32.settle := rfl

@[simp] theorem State.settle_u64 (s : State) : s.settle.u64 = s.u64.settle := rfl

@[simp] theorem State.settle_run (s : State) : s.settle.run = s.run := rfl

@[simp] theorem State.load_u8 (s : State) (p : Presented) : (s.load p).u8 = s.u8 := rfl

@[simp] theorem State.load_u16 (s : State) (p : Presented) : (s.load p).u16 = s.u16 := rfl

@[simp] theorem State.load_u32 (s : State) (p : Presented) : (s.load p).u32 = s.u32 := rfl

@[simp] theorem State.load_u64 (s : State) (p : Presented) : (s.load p).u64 = s.u64 := rfl

@[simp] theorem State.load_run (s : State) (p : Presented) : (s.load p).run = ⟨p.entry :: s.run.script, s.run.responses⟩ := rfl

@[simp] theorem State.evaluated_run (s : State) (p : Presented) : (s.evaluated p).run = s.run := by
  cases p <;> rfl

@[simp] theorem Wau.present_inp {w : Nat} (q : Request w) (p : Response w) :
    (Wau.present q p).inp = InPorts.ofRequest q := rfl

@[simp] theorem Wau.present_out {w : Nat} (q : Request w) (p : Response w) :
    (Wau.present q p).out = some p := rfl

@[simp] theorem Wau.settle_inp {w : Nat} (u : Wau w) : u.settle.inp = u.inp := rfl

@[simp] theorem Wau.settle_out {w : Nat} (u : Wau w) : u.settle.out = u.inp.request?.map evaluate := rfl

@[simp] theorem InPorts.request?_ofRequest {w : Nat} (q : Request w) :
    (InPorts.ofRequest q).request? = some q := rfl

end Sys2Proof.Machine
end

