-- ==== Sys2Proof/Laws/Ops.lean ====
section
/-! SUPPORT. Laws/Ops.lean: what the shared operations can do, said once each: exec, the host's substitution and sampling, and
the cases of a step. -/

namespace Sys2Proof.Machine

/-! ## Responses -/

@[simp] theorem unlessZeroModulus_zero {w : Nat} (p : Response w) :
    unlessZeroModulus 0#w p = .fault .zeroModulus := if_pos rfl

theorem unlessZeroModulus_of_ne {w : Nat} {m : BitVec w} (h : m ≠ 0) (p : Response w) :
    unlessZeroModulus m p = p := if_neg h

theorem seriesPv_iff {w : Nat} (a limit : BitVec w) : seriesPv a limit = true ↔ a = 0 ∨ limit < a := by
  simp [seriesPv]

/-! ## Execution -/

/-- Every meaning is `Exec_W` of its request, delivered on the ports of its instance (spec 00_scope.md R12). -/
theorem exec_eq_evaluated (i : Instr) (s : State) : exec i s = .next (s.evaluated i.request) := by
  cases i <;> rfl

@[simp] theorem answerOf_width (p : Presented) : (answerOf p).width = p.width := by
  cases p <;> rfl

/-- The outputs of the instance a request was presented to carry `Exec_W` of it. -/
theorem output_evaluated (s : State) (p : Presented) :
    (s.evaluated p).output p.width = some (answerOf p) := by
  cases p <;> rfl

/-! ## The host -/

theorem fitPort_of_lt {w v : Nat} (h : v < 2 ^ w) : fitPort w v = .ok (BitVec.ofNat w v) := if_pos h

theorem fitPort_toNat {w : Nat} (v : BitVec w) : fitPort w v.toNat = .ok v := by
  rw [fitPort_of_lt v.isLt, BitVec.ofNat_toNat, BitVec.setWidth_eq]

/-- A request written as a script entry is that request again, whatever responses there are. -/
theorem resolve_entry (p : Presented) (rs : List Sampled) : resolve p.entry rs = .ok p := by
  cases p <;>
    simp [Presented.entry, Request.entry, resolve, resolveAt, operandValue, fitPort_toNat, Except.map]

/-- Sampling records the response on the outputs. -/
theorem sample_of_output {s : State} {wd : Width} {p : Sampled} (h : s.output wd = some p) :
    s.sample wd = .next (s.record p) := by
  simp [State.sample, h]

/-- The operation codes and the operations correspond. -/
theorem ofCode_code (o : Op) : Op.ofCode o.code = o := by
  cases o <;> rfl

theorem code_ofCode : ∀ c : BitVec 3, (Op.ofCode c).code = c := by decide

/-- No bit of a request is lost in decoding it. -/
theorem request_decode (p : Presented) : (decode p).request = p := by
  cases p with
  | r8 q =>
    have h := code_ofCode q.op
    simp only [decode, Request.instr8]
    split <;> rename_i ho <;> rw [ho] at h <;> simp only [Instr.request, h]
  | r16 q =>
    have h := code_ofCode q.op
    simp only [decode, Request.instr16]
    split <;> rename_i ho <;> rw [ho] at h <;> simp only [Instr.request, h]
  | r32 q =>
    have h := code_ofCode q.op
    simp only [decode, Request.instr32]
    split <;> rename_i ho <;> rw [ho] at h <;> simp only [Instr.request, h]
  | r64 q =>
    have h := code_ofCode q.op
    simp only [decode, Request.instr64]
    split <;> rename_i ho <;> rw [ho] at h <;> simp only [Instr.request, h]

/-! ## A step -/

/-- A step that presents a request ends with its response on the outputs and recorded. -/
theorem step_of_present {s : State} {p : Presented} {rest : List Entry} (h : s.hostMove = .present p rest) :
    step s = .next (((s.withScript rest).evaluated p).record (answerOf p)) := by
  simp only [step, h, exec_eq_evaluated, request_decode]
  exact sample_of_output (output_evaluated _ _)

/-- All a step can do: settle, present the next request and record its response, or refuse what the host must reject. -/
theorem step_cases (s : State) :
    (s.hostMove = .idle ∧ step s = .next s.settle) ∨
    (∃ p rest, s.hostMove = .present p rest ∧
      step s = .next (((s.withScript rest).evaluated p).record (answerOf p))) ∨
    (∃ why, s.hostMove = .reject why ∧ step s = .refused why) := by
  cases h : s.hostMove with
  | idle => exact .inl ⟨rfl, by simp only [step, h]⟩
  | present p rest => exact .inr (.inl ⟨p, rest, rfl, step_of_present h⟩)
  | reject why => exact .inr (.inr ⟨why, rfl, by simp only [step, h]⟩)

end Sys2Proof.Machine
end

