-- ==== Sys2Proof/Laws/PerInstr.lean ====
section
/-! SUPPORT. Laws/PerInstr.lean: for every instruction, that the decoder of the ports gives it back from the request it is. -/

namespace Sys2Proof.Laws.RequestCoding

/-- The decoder reads the instruction from the values it puts on the input ports, and the operation is the one its code
selects (spec 30_encoding.md R42, R45). -/
def Statement (i : Instr) : Prop := decode i.request = i ∧ Op.ofCode i.op.code = i.op

theorem rotaryAdd8 (a b m : BitVec 8) : Statement (.rotaryAdd8 a b m) := ⟨rfl, rfl⟩

theorem rotarySub8 (a b m : BitVec 8) : Statement (.rotarySub8 a b m) := ⟨rfl, rfl⟩

theorem cycleAdd8 (a b m : BitVec 8) : Statement (.cycleAdd8 a b m) := ⟨rfl, rfl⟩

theorem cycleSub8 (a b m : BitVec 8) : Statement (.cycleSub8 a b m) := ⟨rfl, rfl⟩

theorem seriesAdd8 (a b m : BitVec 8) : Statement (.seriesAdd8 a b m) := ⟨rfl, rfl⟩

theorem seriesSub8 (a b m : BitVec 8) : Statement (.seriesSub8 a b m) := ⟨rfl, rfl⟩

theorem seriesMod8 (a b m : BitVec 8) : Statement (.seriesMod8 a b m) := ⟨rfl, rfl⟩

theorem reserved8 (a b m : BitVec 8) : Statement (.reserved8 a b m) := ⟨rfl, rfl⟩

theorem rotaryAdd16 (a b m : BitVec 16) : Statement (.rotaryAdd16 a b m) := ⟨rfl, rfl⟩

theorem rotarySub16 (a b m : BitVec 16) : Statement (.rotarySub16 a b m) := ⟨rfl, rfl⟩

theorem cycleAdd16 (a b m : BitVec 16) : Statement (.cycleAdd16 a b m) := ⟨rfl, rfl⟩

theorem cycleSub16 (a b m : BitVec 16) : Statement (.cycleSub16 a b m) := ⟨rfl, rfl⟩

theorem seriesAdd16 (a b m : BitVec 16) : Statement (.seriesAdd16 a b m) := ⟨rfl, rfl⟩

theorem seriesSub16 (a b m : BitVec 16) : Statement (.seriesSub16 a b m) := ⟨rfl, rfl⟩

theorem seriesMod16 (a b m : BitVec 16) : Statement (.seriesMod16 a b m) := ⟨rfl, rfl⟩

theorem reserved16 (a b m : BitVec 16) : Statement (.reserved16 a b m) := ⟨rfl, rfl⟩

theorem rotaryAdd32 (a b m : BitVec 32) : Statement (.rotaryAdd32 a b m) := ⟨rfl, rfl⟩

theorem rotarySub32 (a b m : BitVec 32) : Statement (.rotarySub32 a b m) := ⟨rfl, rfl⟩

theorem cycleAdd32 (a b m : BitVec 32) : Statement (.cycleAdd32 a b m) := ⟨rfl, rfl⟩

theorem cycleSub32 (a b m : BitVec 32) : Statement (.cycleSub32 a b m) := ⟨rfl, rfl⟩

theorem seriesAdd32 (a b m : BitVec 32) : Statement (.seriesAdd32 a b m) := ⟨rfl, rfl⟩

theorem seriesSub32 (a b m : BitVec 32) : Statement (.seriesSub32 a b m) := ⟨rfl, rfl⟩

theorem seriesMod32 (a b m : BitVec 32) : Statement (.seriesMod32 a b m) := ⟨rfl, rfl⟩

theorem reserved32 (a b m : BitVec 32) : Statement (.reserved32 a b m) := ⟨rfl, rfl⟩

theorem rotaryAdd64 (a b m : BitVec 64) : Statement (.rotaryAdd64 a b m) := ⟨rfl, rfl⟩

theorem rotarySub64 (a b m : BitVec 64) : Statement (.rotarySub64 a b m) := ⟨rfl, rfl⟩

theorem cycleAdd64 (a b m : BitVec 64) : Statement (.cycleAdd64 a b m) := ⟨rfl, rfl⟩

theorem cycleSub64 (a b m : BitVec 64) : Statement (.cycleSub64 a b m) := ⟨rfl, rfl⟩

theorem seriesAdd64 (a b m : BitVec 64) : Statement (.seriesAdd64 a b m) := ⟨rfl, rfl⟩

theorem seriesSub64 (a b m : BitVec 64) : Statement (.seriesSub64 a b m) := ⟨rfl, rfl⟩

theorem seriesMod64 (a b m : BitVec 64) : Statement (.seriesMod64 a b m) := ⟨rfl, rfl⟩

theorem reserved64 (a b m : BitVec 64) : Statement (.reserved64 a b m) := ⟨rfl, rfl⟩

end Sys2Proof.Laws.RequestCoding
end

