-- ==== Sys2Proof/Laws/Run.lean ====
section
/-! SUPPORT. Laws/Run.lean: runs of several steps, one step at a time. -/

namespace Sys2Proof.Laws

theorem run_zero (M : Host.Core) (s : M.State) : M.run 0 s = .next s := by
  simp only [Host.Core.run]

/-- A run whose first step answers `t` goes on from `t`. -/
theorem run_succ (M : Host.Core) (n : Nat) (s t : M.State) (h : M.step s = .next t) :
    M.run (n + 1) s = M.run n t := by
  simp only [Host.Core.run, h]

/-- A run whose first step is refused ends in that refusal. -/
theorem run_refused (M : Host.Core) (n : Nat) (s : M.State) (why : M.Refusal) (h : M.step s = .refused why) :
    M.run (n + 1) s = .refused why := by
  simp only [Host.Core.run, h]

end Sys2Proof.Laws
end

