-- ==== Sys2Proof/Tests/Slice0.lean ====
section
/-! SUPPORT. Tests/Slice0.lean: decoding, one-step and spelling tests whose expected results are the spec's own vectors (95_test_vectors.md,
30_encoding.md R52, R53, R57) or worked by hand from the rules, ill-formed terms that the checks refuse, and for every obligation
with hypotheses a concrete input that meets them. -/

namespace Sys2Proof.Tests

open Sys2Proof Sys2Proof.Machine

/-- The state a step or an instruction answers, if it answers one. -/
def nextOf (o : Host.Outcome State Fault Refusal) : Option State :=
  match o with
  | .next t => some t
  | .fault _ => none
  | .refused _ => none

/-- Why a step is refused, if it is. -/
def refusalOf (o : Host.Outcome State Fault Refusal) : Option Refusal :=
  match o with
  | .next _ => none
  | .fault _ => none
  | .refused why => some why

/-- The response the host samples in the next step. -/
def responseOf (s : State) : Option Sampled :=
  match step s with
  | .next t => t.run.responses.getLast?
  | .fault _ => none
  | .refused _ => none

/-! ## Decoding: one word for each constructor, from REQ of the vectors or written by hand from R43 and R45 -/

/-- The word of `rotary_add.8 254, 37` bit by bit (R43): op 000, m 0, b 37, a 254. -/
theorem test_bits_rotary : decodeTableWord 32 0b000_00000000_00100101_11111110 = some (.rotaryAdd8 254 37 0) := by decide

/-- The word of `cycle_sub.8 10, 20, 60` bit by bit: op 011, m 00111100, b 00010100, a 00001010. -/
theorem test_bits_cycle : decodeTableWord 32 0b011_00111100_00010100_00001010 = some (.cycleSub8 10 20 60) := by decide

/-- The word of `series_mod.8 10, 7` bit by bit: op 110, m 00000111, b 0, a 00001010. -/
theorem test_bits_series : decodeTableWord 32 0b110_00000111_00000000_00001010 = some (.seriesMod8 10 0 7) := by decide

/-- The word of `raw.8 7, 1, 2, 3` bit by bit: op 111, m 00000011, b 00000010, a 00000001. -/
theorem test_bits_reserved : decodeTableWord 32 0b111_00000011_00000010_00000001 = some (.reserved8 1 2 3) := by decide

theorem test_decode_rotaryAdd8 : decodeTableWord 32 0x00025FE = some (.rotaryAdd8 254 37 0) := by decide
theorem test_decode_rotarySub8 : decodeTableWord 32 0x1000403 = some (.rotarySub8 3 4 0) := by decide
theorem test_decode_cycleAdd8 : decodeTableWord 32 0x23CFAC8 = some (.cycleAdd8 200 250 60) := by decide
theorem test_decode_cycleSub8 : decodeTableWord 32 0x33CC805 = some (.cycleSub8 5 200 60) := by decide
theorem test_decode_seriesAdd8 : decodeTableWord 32 0x4070206 = some (.seriesAdd8 6 2 7) := by decide
theorem test_decode_seriesSub8 : decodeTableWord 32 0x507FF00 = some (.seriesSub8 0 255 7) := by decide
theorem test_decode_seriesMod8 : decodeTableWord 32 0x607630A = some (.seriesMod8 10 99 7) := by decide
theorem test_decode_reserved8 : decodeTableWord 32 0x7000201 = some (.reserved8 1 2 0) := by decide
theorem test_decode_rotaryAdd16 : decodeTableWord 56 0x0000075309C40 = some (.rotaryAdd16 40000 30000 0) := by decide
theorem test_decode_rotarySub16 : decodeTableWord 56 0x1000007D003E8 = some (.rotarySub16 1000 2000 0) := by decide
theorem test_decode_cycleAdd16 : decodeTableWord 56 0x20E10C350C350 = some (.cycleAdd16 50000 50000 3600) := by decide
theorem test_decode_cycleSub16 : decodeTableWord 56 0x340005DC04E20 = some (.cycleSub16 20000 24000 16384) := by decide
theorem test_decode_seriesAdd16 : decodeTableWord 56 0x4016D0001016D = some (.seriesAdd16 365 1 365) := by decide
theorem test_decode_seriesSub16 : decodeTableWord 56 0x5016D00010001 = some (.seriesSub16 1 1 365) := by decide
theorem test_decode_seriesMod16 : decodeTableWord 56 0x600070000FFFF = some (.seriesMod16 65535 0 7) := by decide
theorem test_decode_reserved16 : decodeTableWord 56 0x7000000000000 = some (.reserved16 0 0 0) := by decide
theorem test_decode_rotaryAdd32 : decodeTableWord 104 0x0000000001DCD6500EE6B2800 = some (.rotaryAdd32 4000000000 500000000 0) := by decide
theorem test_decode_rotarySub32 : decodeTableWord 104 0x100000000FFFFFFFF00000005 = some (.rotarySub32 5 4294967295 0) := by decide
theorem test_decode_cycleAdd32 : decodeTableWord 104 0x23B9ACA07EE6B2800EE6B2800 = some (.cycleAdd32 4000000000 4000000000 1000000007) := by decide
theorem test_decode_cycleSub32 : decodeTableWord 104 0x3000151800000000200000001 = some (.cycleSub32 1 2 86400) := by decide
theorem test_decode_seriesAdd32 : decodeTableWord 104 0x4FFFFFFFFFFFFFFFFFFFFFFFF = some (.seriesAdd32 4294967295 4294967295 4294967295) := by decide
theorem test_decode_seriesSub32 : decodeTableWord 104 0x500000007FFFFFFFF00000001 = some (.seriesSub32 1 4294967295 7) := by decide
theorem test_decode_seriesMod32 : decodeTableWord 104 0x6000003E800000000FFFFFFFF = some (.seriesMod32 4294967295 0 1000) := by decide
theorem test_decode_reserved32 : decodeTableWord 104 0x7000000030000000200000001 = some (.reserved32 1 2 3) := by decide
theorem test_decode_rotaryAdd64 : decodeTableWord 200 0x000000000000000000000000000000002FFFFFFFFFFFFFFFF = some (.rotaryAdd64 18446744073709551615 2 0) := by decide
theorem test_decode_rotarySub64 : decodeTableWord 200 0x1000000000000000000000000000000010000000000000000 = some (.rotarySub64 0 1 0) := by decide
theorem test_decode_cycleAdd64 : decodeTableWord 200 0x2000000003B9ACA07FFFFFFFFFFFFFFFFFFFFFFFFFFFFFFFF = some (.cycleAdd64 18446744073709551615 18446744073709551615 1000000007) := by decide
theorem test_decode_cycleSub64 : decodeTableWord 200 0x3FFFFFFFFFFFFFFFF00000000000000010000000000000000 = some (.cycleSub64 0 1 18446744073709551615) := by decide
theorem test_decode_seriesAdd64 : decodeTableWord 200 0x4FFFFFFFFFFFFFFFF0000000000000001FFFFFFFFFFFFFFFF = some (.seriesAdd64 18446744073709551615 1 18446744073709551615) := by decide
theorem test_decode_seriesSub64 : decodeTableWord 200 0x5000000000000016D00000000000000010000000000000001 = some (.seriesSub64 1 1 365) := by decide
theorem test_decode_seriesMod64 : decodeTableWord 200 0x600000000000000070000000000000000FFFFFFFFFFFFFFFF = some (.seriesMod64 18446744073709551615 0 7) := by decide
theorem test_decode_reserved64 : decodeTableWord 200 0x7000000000000000300000000000000020000000000000001 = some (.reserved64 1 2 3) := by decide

/-- A row of 27 bits, the request without its padding, is the same request. -/
theorem test_decode_unpadded : decodeTableWord 27 0x00025FE = some (.rotaryAdd8 254 37 0) := by decide

/-- No instance has requests of 40 bits (R6, R43). -/
theorem test_decode_other_size : decodeTableWord 40 0x00025FE = none := by decide

/-- R57 and PG3: the bytes of `cycle_sub.16 20000, 24000, 16384`, least significant first. -/
theorem test_bytes : encode (.cycleSub16 20000 24000 16384) = [0x20, 0x4E, 0xC0, 0x5D, 0x00, 0x40, 0x03] := by decide

/-- R51: a string one byte short is no request. -/
theorem test_bytes_short : decodeBytes .w8 [0xFE, 0x25, 0x00] = .error .wrongLength := by decide

/-- R32: padding is ignored when read. -/
theorem test_padding_ignored : decodeBytes .w8 [0xFE, 0x25, 0x00, 0xF8] = .ok (.rotaryAdd8 254 37 0) := by decide

/-! ## One step from reset -/

/-- S1: 254 + 37 = 291 = 256 + 35. -/
theorem test_step_rotaryAdd8 : responseOf (State.reset.withFetchWord 32 0x00025FE) = some (.r8 (.ok 35 false)) := by decide

/-- S2: a zero m is no fault for rotary. -/
theorem test_step_rotarySub8 : responseOf (State.reset.withFetchWord 32 0x1000403) = some (.r8 (.ok 255 false)) := by decide

/-- V-C4: the exact sum 450 exceeds MAX. -/
theorem test_step_cycleAdd8 : responseOf (State.reset.withFetchWord 32 0x23CFAC8) = some (.r8 (.ok 30 false)) := by decide

/-- V-C19: 200 mod 60 = 20 > 5. -/
theorem test_step_cycleSub8 : responseOf (State.reset.withFetchWord 32 0x33CC805) = some (.r8 (.ok 45 false)) := by decide

/-- S4. -/
theorem test_step_seriesAdd8 : responseOf (State.reset.withFetchWord 32 0x4070206) = some (.r8 (.ok 1 false)) := by decide

/-- V-S30: pv, the most negative difference. -/
theorem test_step_seriesSub8 : responseOf (State.reset.withFetchWord 32 0x507FF00) = some (.r8 (.ok 4 true)) := by decide

/-- V-S43: b is don't-care. -/
theorem test_step_seriesMod8 : responseOf (State.reset.withFetchWord 32 0x607630A) = some (.r8 (.ok 3 false)) := by decide

/-- V-F3: ILLEGAL_OP before ZERO_MODULUS. -/
theorem test_step_reserved8 : responseOf (State.reset.withFetchWord 32 0x7000201) = some (.r8 (.fault .illegalOp)) := by decide

/-- V-R19. -/
theorem test_step_rotaryAdd16 : responseOf (State.reset.withFetchWord 56 0x0000075309C40) = some (.r16 (.ok 4464 false)) := by decide

/-- V-R21. -/
theorem test_step_rotarySub16 : responseOf (State.reset.withFetchWord 56 0x1000007D003E8) = some (.r16 (.ok 64536 false)) := by decide

/-- V-C28. -/
theorem test_step_cycleAdd16 : responseOf (State.reset.withFetchWord 56 0x20E10C350C350) = some (.r16 (.ok 2800 false)) := by decide

/-- S8. -/
theorem test_step_cycleSub16 : responseOf (State.reset.withFetchWord 56 0x340005DC04E20) = some (.r16 (.ok 12384 false)) := by decide

/-- V-S46. -/
theorem test_step_seriesAdd16 : responseOf (State.reset.withFetchWord 56 0x4016D0001016D) = some (.r16 (.ok 1 false)) := by decide

/-- V-S47. -/
theorem test_step_seriesSub16 : responseOf (State.reset.withFetchWord 56 0x5016D00010001) = some (.r16 (.ok 365 false)) := by decide

/-- V-S48. -/
theorem test_step_seriesMod16 : responseOf (State.reset.withFetchWord 56 0x600070000FFFF) = some (.r16 (.ok 1 false)) := by decide

/-- V-F4. -/
theorem test_step_reserved16 : responseOf (State.reset.withFetchWord 56 0x7000000000000) = some (.r16 (.fault .illegalOp)) := by decide

/-- V-R23. -/
theorem test_step_rotaryAdd32 : responseOf (State.reset.withFetchWord 104 0x0000000001DCD6500EE6B2800) = some (.r32 (.ok 205032704 false)) := by decide

/-- V-R25. -/
theorem test_step_rotarySub32 : responseOf (State.reset.withFetchWord 104 0x100000000FFFFFFFF00000005) = some (.r32 (.ok 6 false)) := by decide

/-- V-C30. -/
theorem test_step_cycleAdd32 : responseOf (State.reset.withFetchWord 104 0x23B9ACA07EE6B2800EE6B2800) = some (.r32 (.ok 999999951 false)) := by decide

/-- V-C31. -/
theorem test_step_cycleSub32 : responseOf (State.reset.withFetchWord 104 0x3000151800000000200000001) = some (.r32 (.ok 86399 false)) := by decide

/-- V-S50: limit = MAX. -/
theorem test_step_seriesAdd32 : responseOf (State.reset.withFetchWord 104 0x4FFFFFFFFFFFFFFFFFFFFFFFF) = some (.r32 (.ok 4294967295 false)) := by decide

/-- V-S51. -/
theorem test_step_seriesSub32 : responseOf (State.reset.withFetchWord 104 0x500000007FFFFFFFF00000001) = some (.r32 (.ok 5 false)) := by decide

/-- V-S52. -/
theorem test_step_seriesMod32 : responseOf (State.reset.withFetchWord 104 0x6000003E800000000FFFFFFFF) = some (.r32 (.ok 295 false)) := by decide

/-- by hand from R43, R45 and R106: the operands of V-F2. -/
theorem test_step_reserved32 : responseOf (State.reset.withFetchWord 104 0x7000000030000000200000001) = some (.r32 (.fault .illegalOp)) := by decide

/-- V-R26. -/
theorem test_step_rotaryAdd64 : responseOf (State.reset.withFetchWord 200 0x000000000000000000000000000000002FFFFFFFFFFFFFFFF) = some (.r64 (.ok 1 false)) := by decide

/-- V-R27. -/
theorem test_step_rotarySub64 : responseOf (State.reset.withFetchWord 200 0x1000000000000000000000000000000010000000000000000) = some (.r64 (.ok 18446744073709551615 false)) := by decide

/-- V-C33. -/
theorem test_step_cycleAdd64 : responseOf (State.reset.withFetchWord 200 0x2000000003B9ACA07FFFFFFFFFFFFFFFFFFFFFFFFFFFFFFFF) = some (.r64 (.ok 164688007 false)) := by decide

/-- V-C34: base = MAX. -/
theorem test_step_cycleSub64 : responseOf (State.reset.withFetchWord 200 0x3FFFFFFFFFFFFFFFF00000000000000010000000000000000) = some (.r64 (.ok 18446744073709551614 false)) := by decide

/-- V-S53. -/
theorem test_step_seriesAdd64 : responseOf (State.reset.withFetchWord 200 0x4FFFFFFFFFFFFFFFF0000000000000001FFFFFFFFFFFFFFFF) = some (.r64 (.ok 1 false)) := by decide

/-- by hand from R43, R45 and R91: the operands of V-S47. -/
theorem test_step_seriesSub64 : responseOf (State.reset.withFetchWord 200 0x5000000000000016D00000000000000010000000000000001) = some (.r64 (.ok 365 false)) := by decide

/-- V-S54. -/
theorem test_step_seriesMod64 : responseOf (State.reset.withFetchWord 200 0x600000000000000070000000000000000FFFFFFFFFFFFFFFF) = some (.r64 (.ok 1 false)) := by decide

/-- by hand from R43, R45 and R106: the operands of V-F2. -/
theorem test_step_reserved64 : responseOf (State.reset.withFetchWord 200 0x7000000000000000300000000000000020000000000000001) = some (.r64 (.fault .illegalOp)) := by decide

/-- V-R4: the sum is 2^W exactly. -/
theorem test_step_rotaryAdd8_wraps : responseOf (State.reset.withFetchWord 32 0x00001FF) = some (.r8 (.ok 0 false)) := by decide

/-- V-F11. -/
theorem test_step_rotarySub8_ignores_m : responseOf (State.reset.withFetchWord 32 0x1000201) = some (.r8 (.ok 255 false)) := by decide

/-- V-C7: base = MAX is not the rotary operation, which gives 44. -/
theorem test_step_cycleAdd8_base_max : responseOf (State.reset.withFetchWord 32 0x2FF64C8) = some (.r8 (.ok 45 false)) := by decide

/-- V-C25. -/
theorem test_step_cycleSub8_zero_base : responseOf (State.reset.withFetchWord 32 0x3000409) = some (.r8 (.fault .zeroModulus)) := by decide

/-- V-S17: limit = 0 wins over pv. -/
theorem test_step_seriesAdd8_fault_before_pv : responseOf (State.reset.withFetchWord 32 0x4000000) = some (.r8 (.fault .zeroModulus)) := by decide

/-- V-S21. -/
theorem test_step_seriesSub8_wraps_to_limit : responseOf (State.reset.withFetchWord 32 0x5070404) = some (.r8 (.ok 7 false)) := by decide

/-- V-S35: 0 maps to limit. -/
theorem test_step_seriesMod8_zero : responseOf (State.reset.withFetchWord 32 0x6070000) = some (.r8 (.ok 7 false)) := by decide

/-- V-F2. -/
theorem test_step_reserved8_ignores_operands : responseOf (State.reset.withFetchWord 32 0x7030201) = some (.r8 (.fault .illegalOp)) := by decide

/-- V-C27. -/
theorem test_step_cycleAdd16_base_max : responseOf (State.reset.withFetchWord 56 0x2FFFFFFFFFFFF) = some (.r16 (.ok 0 false)) := by decide

/-- V-S49. -/
theorem test_step_seriesMod16_limit_max : responseOf (State.reset.withFetchWord 56 0x6FFFF00000000) = some (.r16 (.ok 65535 false)) := by decide

/-- V-F12. -/
theorem test_step_cycleAdd32_zero_base : responseOf (State.reset.withFetchWord 104 0x2000000000000000200000001) = some (.r32 (.fault .zeroModulus)) := by decide

/-- V-C32. -/
theorem test_step_cycleSub32_base_max : responseOf (State.reset.withFetchWord 104 0x3FFFFFFFFFFFFFFFF00000000) = some (.r32 (.ok 0 false)) := by decide

/-! ## Response words (R44, R57) -/

theorem test_word_pv : (evaluate (⟨4, 0, 0, 7⟩ : Request 8)).word = 0x807 := by decide

theorem test_word_zero_modulus : (evaluate (⟨2, 1, 2, 0⟩ : Request 32)).word = 0x300000000 := by decide

theorem test_word_illegal_op : (evaluate (⟨7, 0, 0, 0⟩ : Request 16)).word = 0x50000 := by decide

/-- U8: a word with `fault` = 0 and `cause` = 01 is never produced. -/
theorem test_word_never_produced : Response.ofWord (0x200 : BitVec (Config.rspWidth 8)) = none := by decide

/-- R55: nor is `pv` = 1 beside `r` = 0, since a series result is at least 1; `pv` = 1 beside `r` = 1 is (V-S31). -/
theorem test_word_pv_zero : Response.ofWord (0x800 : BitVec (Config.rspWidth 8)) = none ∧
    Response.ofWord (0x801 : BitVec (Config.rspWidth 8)) = some (.ok 1 true) := by decide

/-- PG3 step 3 and PG4 steps 3 and 4: the bytes of RSP. -/
theorem test_response_bytes : (answerOf (.r16 ⟨3, 20000, 24000, 16384⟩)).bytes = [0x60, 0x30, 0x00] ∧
    (answerOf (.r8 ⟨7, 1, 2, 3⟩)).bytes = [0x00, 0x05] ∧ (answerOf (.r8 ⟨4, 0, 0, 7⟩)).bytes = [0x07, 0x08] := by decide

/-- R32: the padding of a response is ignored when read; R44: a response of the 8-bit instance has 2 bytes. -/
theorem test_response_read : responseOfBytes .w8 [0x07, 0xF8] = .ok (.r8 (.ok 7 true)) ∧
    responseOfBytes .w8 [0x07] = .error .wrongLength ∧ responseOfBytes .w8 [0x00, 0x08] = .error .neverProduced := by decide

/-! ## Well-formed terms and spelling -/

/-- R53: a rotary request with `m` other than 0 is not canonical. -/
theorem test_wf_rotary_m : (Instr.rotaryAdd8 254 37 255).canonical = false := by decide

theorem test_wf_rotary_sub_m : (Instr.rotarySub16 3 4 1).canonical = false := by decide

/-- R53: nor is SERIES_MOD with `b` other than 0. -/
theorem test_wf_series_mod_b : (Instr.seriesMod32 10 99 7).canonical = false := by decide

/-- R52: nor is the reserved code, which only `raw` writes. -/
theorem test_wf_reserved : (Instr.reserved64 0 0 0).canonical = false := by decide

theorem test_wf_canonical : (Instr.rotaryAdd8 254 37 0).canonical = true := by decide

/-- R52: the literal 256 does not fit an 8-bit instance, and 255 does. -/
theorem test_wf_literal : (Operand.lit 256).wf 8 1 = false ∧ (Operand.lit 255).wf 8 1 = true := by decide

/-- R52: `$0` names no request, and `$2` in request 2 names itself. -/
theorem test_wf_result : (Operand.result 0).wf 8 2 = false ∧ (Operand.result 2).wf 8 2 = false ∧
    (Operand.result 1).wf 8 2 = true := by decide

/-- An entry with one bad operand, in each place. -/
theorem test_wf_entry : Entry.wf 1 ⟨.w8, 2, .lit 256, .lit 1, .lit 1⟩ = false ∧ Entry.wf 1 ⟨.w8, 2, .lit 1, .result 1, .lit 1⟩ = false ∧
    Entry.wf 1 ⟨.w16, 2, .lit 1, .lit 1, .lit 65536⟩ = false := by decide

/-- The script PG1 names only earlier requests, and is refused with its lines 1 and 2 exchanged. -/
theorem test_wf_script :
    scriptWf 1 [⟨.w8, 6, .lit 13, .lit 0, .lit 7⟩, ⟨.w8, 4, .result 1, .lit 2, .lit 7⟩] = true ∧
    scriptWf 1 [⟨.w8, 4, .result 1, .lit 2, .lit 7⟩, ⟨.w8, 6, .lit 13, .lit 0, .lit 7⟩] = false := by decide

theorem test_asm : assembleText "series_mod.8 $5, 0x1f" = .ok ⟨.w8, 6, .result 5, .lit 0, .lit 31⟩ := by decide

/-- Log entry 11: zeros before the digits of a suffix, a literal and a `$n`. -/
theorem test_asm_zeros : assembleText "rotary_add.08 007, $01" = .ok ⟨.w8, 0, .lit 7, .result 1, .lit 0⟩ := by decide

theorem test_asm_binary : assembleText "cycle_sub.16 20000, 0b11, 16384" = .ok ⟨.w16, 3, .lit 20000, .lit 3, .lit 16384⟩ := by decide

/-- R52: a literal that does not fit is an error, never truncated. -/
theorem test_asm_too_wide : assembleText "rotary_add.8 256, 37" = .error (.literalTooWide 256) := by decide

theorem test_asm_raw_code : assembleText "raw.8 8, 1, 2, 3" = .error (.literalTooWide 8) := by decide

/-- R52: `series_mod` takes two operands, and the reserved code has no mnemonic. -/
theorem test_asm_malformed : assembleText "series_mod.8 1, 2, 3" = .error .malformed ∧
    assembleText "reserved.8 1, 2, 3" = .error .malformed ∧ assembleText "rotary_add.24 1, 2" = .error .malformed := by decide

/-- R53: a request with a don't-care field other than 0 is printed with `raw`. -/
theorem test_spell_raw : (disassemble (.seriesMod16 10 9 7)).spell = "raw.16 6, 10, 9, 7" := by decide

theorem test_spell : (disassemble (.cycleAdd8 35 29 60)).spell = "cycle_add.8 35, 29, 60" := by decide

theorem test_spell_response : (evaluate (⟨4, 0, 0, 7⟩ : Request 8)).spell = "-> 7 pv" ∧
    (evaluate (⟨7, 0, 0, 0⟩ : Request 8)).spell = "-> fault ILLEGAL_OP" := by decide

/-! ## The host -/

/-- A run whose first response was a fault, whose second was 5 and whose third, of the 16-bit instance, was 300. -/
def midRun (script : List Entry) : State :=
  { State.reset with
    u8 := Wau.present ⟨7, 1, 2, 3⟩ (.fault .illegalOp)
    run := ⟨script, [.r8 (.fault .illegalOp), .r8 (.ok 5 false), .r16 (.ok 300 false)]⟩ }

/-- `series_add.8 $2, 0, 7` is `series_add.8 5, 0, 7` (R52). -/
theorem test_substitution : responseOf (midRun [⟨.w8, 4, .result 2, .lit 0, .lit 7⟩]) = some (.r8 (.ok 5 false)) := by decide

/-- PG4: a request that names a faulted response is refused. -/
theorem test_faulted_operand :
    refusalOf (step (midRun [⟨.w8, 4, .result 1, .lit 0, .lit 7⟩])) = some (.faultedResponse 1) := by decide

/-- PG4 step 2: after a fault the next request is answered. -/
theorem test_not_sticky : responseOf (midRun [⟨.w8, 0, .lit 1, .lit 2, .lit 0⟩]) = some (.r8 (.ok 3 false)) := by decide

/-- PG4: the fault mark is set by a fault and keeps the causes. -/
theorem test_fault_mark : (nextOf (step (midRun [⟨.w8, 2, .lit 10, .lit 20, .lit 0⟩]))).map State.faultRecord =
    some [.illegalOp, .zeroModulus] := by decide

/-! ## Witnesses: inputs that meet the hypotheses of each obligation -/

/-- ModAddIsModularAddition, ModSubIsModularSubtraction, AccumulatorWidthIsNotObservable: the smallest and the largest modulus, the
narrowest accumulator, and a wider one. -/
theorem witness_modulus_range : 8 + 1 ≤ 9 ∧ 8 + 1 ≤ Config.accWidth 8 ∧ 1 ≤ (1 : BitVec 9).toNat ∧ (1 : BitVec 9).toNat ≤ 2 ^ 8 ∧
    1 ≤ (nativeModulus 8).toNat ∧ (nativeModulus 8).toNat ≤ 2 ^ 8 ∧ (nativeModulus 8).toNat = 2 ^ 8 := by decide

/-- ModSubIsModularSubtraction: both branches, at M = 60 (V-C17, V-C19). -/
theorem witness_modSub_branches :
    (reduce (promote 9 (10 : BitVec 8)) (promote 9 (60 : BitVec 9))).toNat ≤ (20 : BitVec 8).toNat ∧
    (5 : BitVec 8).toNat < (reduce (promote 9 (200 : BitVec 8)) (promote 9 (60 : BitVec 9))).toNat := by decide

/-- AccumulatorWidthIsNotObservable: a limit, and the modulus made of it. -/
theorem witness_accumulator_limit : 1 ≤ (255 : BitVec 8).toNat ∧ (255 : BitVec 9) = portModulus (255 : BitVec 8) := by decide

/-- SeriesFixMapsZeroToLimit: the residue 0 and another below L = 7, and their integers. -/
theorem witness_seriesFix : (0 : BitVec 9).toNat < (7 : BitVec 9).toNat ∧ (0 : BitVec 9).toNat = 0 ∧
    (6 : BitVec 9).toNat < (7 : BitVec 9).toNat ∧ (6 : BitVec 9).toNat ≠ 0 ∧ (7 : BitVec 9).toNat ≠ 0 ∧
    ((0 : BitVec 9).toNat : ℤ) = 14 % ((7 : BitVec 9).toNat : ℤ) ∧ ((6 : BitVec 9).toNat : ℤ) = (-1) % ((7 : BitVec 9).toNat : ℤ) := by decide

/-- EncodeInvertsDecode: bytes that decode, with their padding at 0 and at its largest. -/
theorem witness_decodes : decodeBytes .w8 [0xFE, 0x25, 0x00, 0x00] = .ok (.rotaryAdd8 254 37 0) ∧
    decodeBytes .w8 [0xFE, 0x25, 0x00, 0xF8] = .ok (.rotaryAdd8 254 37 0) := by decide

/-- DecoderIsTotal: a string of the right length, and strings a byte shorter and a byte longer. -/
theorem witness_lengths : [0xFF, 0xFF, 0xFF, 0xFF].length = reqBytes .w8 ∧ [0xFF, 0xFF, 0xFF].length ≠ reqBytes .w8 ∧
    [0xFF, 0xFF, 0xFF, 0xFF, 0xFF].length ≠ reqBytes .w8 := by decide

/-- ResponseBytes: bytes that are read as a response, with their padding at 0 and at its largest, and the first and last byte of one. -/
theorem witness_response_bytes : responseOfBytes .w8 [0x07, 0x08] = .ok (.r8 (.ok 7 true)) ∧
    responseOfBytes .w8 [0x07, 0xF8] = .ok (.r8 (.ok 7 true)) ∧ 0 < rspBytes .w8 ∧ 1 < rspBytes .w8 := by decide

/-- ResponseWordDecodes: words that are read as a response. -/
theorem witness_response_words : Response.ofWord (0x807 : BitVec (Config.rspWidth 8)) = some (.ok 7 true) ∧
    Response.ofWord (0x300 : BitVec (Config.rspWidth 8)) = some (.fault .zeroModulus) ∧
    Response.ofWord (0x500 : BitVec (Config.rspWidth 8)) = some (.fault .illegalOp) := by decide

/-- BytesAreLittleEndian: the first and the last byte of four. -/
theorem witness_byte_index : 0 < 4 ∧ 3 < 4 := by decide

/-- CycleAddResult, CycleSubResult, SeriesAddResult, SeriesSubResult, SeriesModResult, and the laws with a base or limit other than 0:
a zero `m`, the smallest and the largest other, at every width. -/
theorem witness_modulus_zero_or_not : (∀ wd : Width, wd = .w8 ∨ wd = .w16 ∨ wd = .w32 ∨ wd = .w64) ∧
    (0 : BitVec 8) = 0 ∧ (1 : BitVec 8) ≠ 0 ∧ (255 : BitVec 8) ≠ 0 ∧ (0 : BitVec 16) = 0 ∧ (1 : BitVec 16) ≠ 0 ∧
    (65535 : BitVec 16) ≠ 0 ∧ (0 : BitVec 32) = 0 ∧ (1 : BitVec 32) ≠ 0 ∧ (4294967295 : BitVec 32) ≠ 0 ∧
    (0 : BitVec 64) = 0 ∧ (1 : BitVec 64) ≠ 0 ∧ (18446744073709551615 : BitVec 64) ≠ 0 := by
  refine ⟨fun wd => ?_, ?_⟩
  · cases wd <;> decide
  · decide

/-- The rotary, cycle and series results have instances in every state: here ROTARY_ADD at reset. -/
theorem witness_completion : (nextOf (exec (.rotaryAdd8 254 37 0) State.reset)).map (fun t => t.u8.out) =
    some (some (.ok 35 false)) := by decide

/-- CycleInverse: an operand below the base, at it, and above it (V-C10). -/
theorem witness_cycleInverse : (60 : BitVec 8) ≠ 0 ∧ (59 : BitVec 8) < 60 ∧ (60 : BitVec 8) ≤ 60 ∧ (60 : BitVec 8) ≤ 130 := by decide

/-- CycleReducesOperands: 130 and 200 reduced modulo 60. -/
theorem witness_cycleReduces : (60 : BitVec 8) ≠ 0 ∧ (10 : BitVec 8).toNat = (130 : BitVec 8).toNat % (60 : BitVec 8).toNat ∧
    (20 : BitVec 8).toNat = (200 : BitVec 8).toNat % (60 : BitVec 8).toNat := by decide

/-- SeriesIdentities: both ends of [1, limit]. -/
theorem witness_series_range : (7 : BitVec 8) ≠ 0 ∧ (1 : BitVec 8) ≠ 0 ∧ (1 : BitVec 8) ≤ 7 ∧ (7 : BitVec 8) ≤ 7 := by decide

/-- ViolatedPreconditionResult, PvConditions: `a` below the range and just above it (V-S12, V-S14). -/
theorem witness_precondition_violated : (7 : BitVec 8) ≠ 0 ∧ ((0 : BitVec 8) = 0 ∨ (7 : BitVec 8) < 0) ∧
    ((8 : BitVec 8) = 0 ∨ (7 : BitVec 8) < 8) ∧ (evaluate (⟨4, 0, 3, 7⟩ : Request 8)).ports.pv = 1 ∧
    (evaluate (⟨5, 8, 3, 7⟩ : Request 8)).ports.pv = 1 := by decide

/-- ResultsLieInRange: a result of each family, with and without `pv` (S1, S3, S7, V-S12). -/
theorem witness_results : evaluate (⟨0, 254, 37, 0⟩ : Request 8) = .ok 35 false ∧ evaluate (⟨2, 35, 29, 60⟩ : Request 8) = .ok 4 false ∧
    evaluate (⟨6, 7, 0, 7⟩ : Request 8) = .ok 7 false ∧ evaluate (⟨4, 0, 0, 7⟩ : Request 8) = .ok 7 true := by decide

/-- FaultPriority: requests that fault, and the reserved code. -/
theorem witness_faults : (evaluate (⟨2, 5, 7, 0⟩ : Request 8)).ports.fault = 1 ∧
    ask .reserved (1 : BitVec 8) 2 0 = .fault .illegalOp := by decide

/-- UnreadInputsDoNotMatter: pairs of requests that differ in an input their operation does not read (V-R8, V-R9; V-S33, V-S43; V-F1,
V-F2). -/
theorem witness_unread_inputs :
    (readsA (Op.ofCode 0) = true ∧ readsB (Op.ofCode 0) = true ∧ readsM (Op.ofCode 0) = false ∧
      (⟨0, 254, 37, 255⟩ : Request 8) ≠ ⟨0, 254, 37, 0⟩) ∧
    (readsA (Op.ofCode 6) = true ∧ readsB (Op.ofCode 6) = false ∧ readsM (Op.ofCode 6) = true ∧
      (⟨6, 10, 99, 7⟩ : Request 8) ≠ ⟨6, 10, 0, 7⟩) ∧
    (readsA (Op.ofCode 7) = false ∧ readsB (Op.ofCode 7) = false ∧ readsM (Op.ofCode 7) = false ∧
      (⟨7, 1, 2, 3⟩ : Request 8) ≠ ⟨7, 0, 0, 0⟩) := by decide

/-- RequestsAreIndependent: two instructions for different instances. -/
theorem witness_two_instances : (Instr.rotaryAdd8 254 37 0).request.width ≠ (Instr.rotaryAdd16 65535 1 0).request.width := by decide

/-- EvaluationIsIdempotent: an instruction that completes. -/
theorem witness_next : exec (.cycleAdd8 5 7 0) State.reset = .next (State.reset.answer8 ⟨2, 5, 7, 0⟩ (.fault .zeroModulus)) := rfl

/-- FaultIsNotSticky: a state whose 8-bit instance shows a fault, and requests that meet no fault condition: one whose operation reads
no `m`, with `m` = 0, and one whose operation reads an `m` other than 0. -/
theorem witness_faultIsNotSticky : (midRun []).output (Instr.rotaryAdd8 1 2 0).request.width = some (.r8 (.fault .illegalOp)) ∧
    (Sampled.r8 (.fault .illegalOp)).cause? = some .illegalOp ∧
    (Instr.rotaryAdd8 1 2 0).request.MeetsNoFault ∧ (Instr.cycleAdd8 1 2 1).request.MeetsNoFault := by
  refine ⟨by decide, by decide, ?_, ?_⟩
  · show (0 : BitVec 3) ≠ 7 ∧ (readsM (Op.ofCode 0) = true → (0 : BitVec 8) ≠ 0)
    decide
  · show (2 : BitVec 3) ≠ 7 ∧ (readsM (Op.ofCode 2) = true → (1 : BitVec 8) ≠ 0)
    decide

/-- OutputsFollowInputs: settled states whose step answers, with a request waiting, after one, and with none. -/
theorem witness_settled : State.reset.Settled ∧ (midRun []).Settled ∧ (nextOf (step (midRun []))).isSome = true ∧
    (midRun []).run.script = [] ∧ (nextOf (step (State.reset.withFetchWord 32 0x23C1D23))).isSome = true ∧
    (State.reset.withFetchWord 32 0x23C1D23).Settled ∧ (nextOf (exec (.rotaryAdd8 1 2 0) (midRun []))).isSome = true := by decide

/-- IdleStepSettles: a state that is not settled, with nothing to present; and an instance with one input undriven, settled. -/
theorem witness_idle : (⟨⟨some 0, some 1, some 2, none⟩, some (.ok 9 false)⟩ : Wau 8).Settled = False ∧
    (⟨⟨some 0, some 1, some 2, none⟩, none⟩ : Wau 8).Settled ∧
    (⟨⟨some 0, some 1, some 2, some 0⟩, some (.ok 3 false)⟩ : Wau 8).Settled := by
  refine ⟨by simp [Wau.Settled, InPorts.request?], by decide, by decide⟩

/-- StepRunsTheDecodedRequest: a script whose head resolves, by a literal and by a result. -/
theorem witness_resolves :
    resolve ⟨.w8, 4, .result 2, .lit 0, .lit 7⟩ (midRun []).run.responses = .ok (.r8 ⟨4, 5, 0, 7⟩) ∧
    (midRun [⟨.w8, 4, .result 2, .lit 0, .lit 7⟩]).run.script = ⟨.w8, 4, .result 2, .lit 0, .lit 7⟩ :: [] := by decide

/-- StepNeverFaults: steps the host refuses, for each reason. -/
theorem witness_refused :
    refusalOf (step (midRun [⟨.w8, 0, .result 1, .lit 0, .lit 0⟩])) = some (.faultedResponse 1) ∧
    refusalOf (step (midRun [⟨.w8, 0, .lit 0, .result 4, .lit 0⟩])) = some (.noSuchResponse 4) ∧
    refusalOf (step (midRun [⟨.w8, 0, .lit 0, .lit 0, .result 3⟩])) = some (.valueTooWide 300) := by decide

/-- RunAnswersEveryRequest: a script made of requests, with one that faults. -/
theorem witness_run : ∀ s : State, (s.withScript [Presented.entry (.r8 ⟨7, 1, 2, 3⟩), Presented.entry (.r8 ⟨0, 1, 2, 0⟩)]).run.script =
    [Presented.r8 ⟨7, 1, 2, 3⟩, Presented.r8 ⟨0, 1, 2, 0⟩].map Presented.entry := fun _ => rfl

/-- RunAnswersEveryRequest: the first two steps of PG1, the second built from the first, and a script whose second request names a
fault (PG4 step 1). -/
theorem witness_run_answers :
    answers [] [⟨.w8, 6, .lit 13, .lit 0, .lit 7⟩, ⟨.w8, 4, .result 1, .lit 2, .lit 7⟩] =
      .ok [.r8 (.ok 6 false), .r8 (.ok 1 false)] ∧
    answers [] [⟨.w8, 2, .lit 10, .lit 20, .lit 0⟩, ⟨.w8, 0, .result 1, .lit 2, .lit 0⟩] = .error (.faultedResponse 1) := by decide

/-- FaultRecordIsKept: a step that answers in a state whose mark is set, and requests that fault, with literals (PG4 step 1) and
with a result as operand. -/
theorem witness_faultRecord : (midRun []).faultMark = true ∧ (nextOf (step (midRun []))).isSome = true ∧
    (answerOf (.r8 ⟨2, 10, 20, 0⟩)).cause? = some .zeroModulus ∧
    resolve ⟨.w8, 2, .lit 10, .lit 20, .lit 0⟩ (midRun []).run.responses = .ok (.r8 ⟨2, 10, 20, 0⟩) ∧
    (answerOf (.r8 ⟨2, 5, 20, 0⟩)).cause? = some .zeroModulus ∧
    resolve ⟨.w8, 2, .result 2, .lit 20, .lit 0⟩ (midRun []).run.responses = .ok (.r8 ⟨2, 5, 20, 0⟩) := by decide

/-- ResultSubstitution: the largest literal of 8 bits, a result of the run, and entries whose three operands are values, at every width. -/
theorem witness_substitution : 255 < 2 ^ 8 ∧ (midRun []).run.responses[1]? = some (.r8 (.ok 5 false)) ∧
    (Sampled.r8 (.ok 5 false)).result? = some 5 ∧ 5 < 2 ^ 8 ∧
    operandValue 8 (midRun []).run.responses (.result 2) = .ok 5 ∧ operandValue 8 (midRun []).run.responses (.lit 255) = .ok 255 ∧
    operandValue 16 (midRun []).run.responses (.result 3) = .ok 300 ∧
    operandValue 32 (midRun []).run.responses (.result 3) = .ok 300 ∧
    operandValue 64 (midRun []).run.responses (.result 2) = .ok 5 := by decide

/-- FaultedResultIsNeverUsed: a faulted response, an index past the last response, a literal and a result that are one too wide or more,
and entries whose first, second and third operand is rejected. -/
theorem witness_rejected : (midRun []).run.responses[0]? = some (.r8 (.fault .illegalOp)) ∧
    (Sampled.r8 (.fault .illegalOp)).cause? = some .illegalOp ∧ (midRun []).run.responses.length ≤ 3 ∧ 2 ^ 8 ≤ 256 ∧
    (midRun []).run.responses[2]? = some (.r16 (.ok 300 false)) ∧ (Sampled.r16 (.ok 300 false)).result? = some 300 ∧ 2 ^ 8 ≤ 300 ∧
    operandValue 8 (midRun []).run.responses (.result 1) = .error (.faultedResponse 1) ∧
    operandValue 8 (midRun []).run.responses (.lit 0) = .ok 0 ∧
    operandValue 8 (midRun []).run.responses (.result 4) = .error (.noSuchResponse 4) ∧
    operandValue 8 (midRun []).run.responses (.result 3) = .error (.valueTooWide 300) := by decide

/-- DisassemblyReassembles: a literal that does not fit in the first, the second and the last operand, a code that does not fit, and a
line all of whose literals are as wide as they may be. -/
theorem witness_misfits : .lit 256 ∈ (AsmLine.rotaryAdd .w8 (.lit 256) (.lit 1)).operands ∧
    .lit 256 ∈ (AsmLine.cycleAdd .w8 (.lit 1) (.lit 256) (.lit 1)).operands ∧
    .lit 256 ∈ (AsmLine.raw .w8 7 (.result 1) (.lit 1) (.lit 256)).operands ∧ 2 ^ Width.bits .w8 ≤ 256 ∧
    (AsmLine.raw .w8 7 (.result 1) (.lit 1) (.lit 256)).code < 8 ∧ 8 ≤ (AsmLine.raw .w8 8 (.lit 1) (.lit 1) (.lit 1)).code ∧
    (∀ v, .lit v ∈ (AsmLine.seriesMod .w8 (.lit 255) (.lit 255)).operands → v < 2 ^ Width.bits .w8) := by
  refine ⟨by decide, by decide, by decide, by decide, by decide, by decide, fun v hv => ?_⟩
  simp [AsmLine.operands] at hv
  subst hv
  decide

/-- DisassemblyReassembles: lines that assemble. -/
theorem witness_assembles : assemble (.rotaryAdd .w8 (.lit 254) (.result 1)) = .ok ⟨.w8, 0, .lit 254, .result 1, .lit 0⟩ ∧
    assemble (.rotarySub .w8 (.lit 3) (.lit 4)) = .ok ⟨.w8, 1, .lit 3, .lit 4, .lit 0⟩ ∧
    assemble (.seriesMod .w8 (.lit 10) (.lit 7)) = .ok ⟨.w8, 6, .lit 10, .lit 0, .lit 7⟩ := by decide

end Sys2Proof.Tests
end

section
/-! PROOFS. The rules of 00_scope.md. First the modular adder and subtractor as numbers, from which the bounds of R69 and the
independence of the accumulator width (R7) follow; then one instruction, one step and a run of the host's script. -/

namespace Sys2Proof.Machine

/-! ## The modular adder and subtractor as numbers (40_datapath.md R66, R67) -/

/-- The second operand as both datapaths use it, reduced before anything else is done with it. -/
theorem reduce_promote_toNat {w n : Nat} (hn : w + 1 ≤ n) (y : BitVec w) (M : BitVec (w + 1)) :
    (reduce (promote n y) (promote n M)).toNat = y.toNat % M.toNat := by
  rw [reduce_toNat, promote_toNat (Nat.le_of_succ_le hn), promote_toNat hn]

/-- The adder's sum does not overflow the accumulator. -/
theorem accAdd_reduce_toNat {w n : Nat} (hn : w + 1 ≤ n) (x y : BitVec w) {M : BitVec (w + 1)}
    (hpos : 1 ≤ M.toNat) (hM : M.toNat ≤ 2 ^ w) :
    (accAdd (promote n x) (reduce (promote n y) (promote n M))).toNat = x.toNat + y.toNat % M.toNat := by
  have hx := promote_toNat (Nat.le_of_succ_le hn) x
  have hy := reduce_promote_toNat hn y M
  have hlt := Nat.mod_lt y.toNat hpos
  have hpow : 2 ^ w + 2 ^ w ≤ 2 ^ n := by
    rw [← Nat.two_mul, ← Nat.pow_succ']
    exact Nat.pow_le_pow_right (by decide) hn
  rw [accAdd_toNat (by rw [hx, hy]; omega), hx, hy]

theorem modAdd_toNat {w n : Nat} (hn : w + 1 ≤ n) (x y : BitVec w) {M : BitVec (w + 1)}
    (hpos : 1 ≤ M.toNat) (hM : M.toNat ≤ 2 ^ w) :
    (modAdd n x y M).toNat = (x.toNat + y.toNat) % M.toNat := by
  rw [modAdd, reduce_toNat, accAdd_reduce_toNat hn x y hpos hM, promote_toNat hn, Nat.add_mod_mod]

/-- The subtractor's difference where the first operand is not below the reduced second. -/
theorem accSub_reduce_toNat {w n : Nat} (hn : w + 1 ≤ n) {x y : BitVec w} {M : BitVec (w + 1)}
    (h : y.toNat % M.toNat ≤ x.toNat) :
    (accSub (promote n x) (reduce (promote n y) (promote n M))).toNat = x.toNat - y.toNat % M.toNat := by
  have hx := promote_toNat (Nat.le_of_succ_le hn) x
  have hy := reduce_promote_toNat hn y M
  rw [accSub_toNat (by rwa [hx, hy]), hx, hy]

/-- The subtractor's difference, taken the other way round where the first operand is below the reduced second. -/
theorem accSub_reduce_promote_toNat {w n : Nat} (hn : w + 1 ≤ n) {x y : BitVec w} {M : BitVec (w + 1)}
    (h : x.toNat < y.toNat % M.toNat) :
    (accSub (reduce (promote n y) (promote n M)) (promote n x)).toNat = y.toNat % M.toNat - x.toNat := by
  have hx := promote_toNat (Nat.le_of_succ_le hn) x
  have hy := reduce_promote_toNat hn y M
  rw [accSub_toNat (by rw [hx, hy]; exact h.le), hx, hy]

/-- The complement of that difference to the modulus. -/
theorem accSub_modulus_toNat {w n : Nat} (hn : w + 1 ≤ n) {x y : BitVec w} {M : BitVec (w + 1)}
    (hpos : 1 ≤ M.toNat) (h : x.toNat < y.toNat % M.toNat) :
    (accSub (promote n M) (accSub (reduce (promote n y) (promote n M)) (promote n x))).toNat =
      M.toNat - (y.toNat % M.toNat - x.toNat) := by
  have hd := accSub_reduce_promote_toNat hn h
  have hlt := Nat.mod_lt y.toNat hpos
  rw [accSub_toNat (by rw [hd, promote_toNat hn]; omega), hd, promote_toNat hn]

theorem modSub_of_le {w n : Nat} (hn : w + 1 ≤ n) {x y : BitVec w} {M : BitVec (w + 1)}
    (h : y.toNat % M.toNat ≤ x.toNat) :
    modSub n x y M = reduce (accSub (promote n x) (reduce (promote n y) (promote n M))) (promote n M) := by
  refine if_pos ((accGe_iff _ _).mpr ?_)
  rwa [reduce_promote_toNat hn, promote_toNat (Nat.le_of_succ_le hn)]

theorem modSub_of_lt {w n : Nat} (hn : w + 1 ≤ n) {x y : BitVec w} {M : BitVec (w + 1)}
    (h : x.toNat < y.toNat % M.toNat) :
    modSub n x y M = accSub (promote n M) (accSub (reduce (promote n y) (promote n M)) (promote n x)) := by
  refine if_neg fun hge => ?_
  rw [accGe_iff, reduce_promote_toNat hn, promote_toNat (Nat.le_of_succ_le hn)] at hge
  exact Nat.not_le_of_lt h hge

/-- Both branches of the subtractor give the non-negative residue of the difference. -/
theorem modSub_toNat {w n : Nat} (hn : w + 1 ≤ n) (x y : BitVec w) {M : BitVec (w + 1)} (hpos : 1 ≤ M.toNat) :
    ((modSub n x y M).toNat : ℤ) = ((x.toNat : ℤ) - y.toNat) % M.toNat := by
  have hlt := Nat.mod_lt y.toNat hpos
  rw [← Int.sub_emod_emod, ← Int.natCast_mod]
  rcases Nat.lt_or_ge x.toNat (y.toNat % M.toNat) with h | h
  · rw [modSub_of_lt hn h, accSub_modulus_toNat hn hpos h, ← Int.add_emod_right, Int.emod_eq_of_lt] <;> omega
  · rw [modSub_of_le hn h, reduce_toNat, accSub_reduce_toNat hn h, promote_toNat hn, Int.natCast_mod,
      Int.natCast_sub h]

theorem modAdd_lt {w n : Nat} (hn : w + 1 ≤ n) (x y : BitVec w) {M : BitVec (w + 1)}
    (hpos : 1 ≤ M.toNat) (hM : M.toNat ≤ 2 ^ w) : (modAdd n x y M).toNat < M.toNat := by
  rw [modAdd_toNat hn x y hpos hM]
  exact Nat.mod_lt _ hpos

theorem modSub_lt {w n : Nat} (hn : w + 1 ≤ n) (x y : BitVec w) {M : BitVec (w + 1)} (hpos : 1 ≤ M.toNat) :
    (modSub n x y M).toNat < M.toNat := by
  have h := Int.emod_lt_of_pos ((x.toNat : ℤ) - y.toNat) (Int.natCast_pos.mpr hpos)
  rw [← modSub_toNat hn x y hpos] at h
  exact Int.ofNat_lt.mp h

/-- The series fix-up of a residue is at most the limit. -/
theorem seriesFix_le {n : Nat} {q L : BitVec n} (h : q.toNat ≤ L.toNat) : (seriesFix q L).toNat ≤ L.toNat := by
  rw [seriesFix_toNat]
  split
  · exact le_rfl
  · exact h

/-! ## The bounds of R69, and the accumulator width -/

/-- What the series operations drive depends on the numbers in the accumulator, not on its width. -/
theorem driveResult_seriesFix_congr {w n k : Nat} {q L : BitVec n} {q' L' : BitVec k}
    (hq : q.toNat = q'.toNat) (hL : L.toNat = L'.toNat) :
    driveResult w (seriesFix q L) = driveResult w (seriesFix q' L') := by
  apply BitVec.eq_of_toNat_eq
  simp only [driveResult, BitVec.toNat_setWidth, seriesFix_toNat, hq, hL]

/-- The adder's sum needs no more than W + 1 bits (R69). -/
theorem accAdd_reduce_le {w n : Nat} (hn : w + 1 ≤ n) (x y : BitVec w) {M : BitVec (w + 1)}
    (hpos : 1 ≤ M.toNat) (hM : M.toNat ≤ 2 ^ w) :
    (accAdd (promote n x) (reduce (promote n y) (promote n M))).toNat ≤ 2 ^ (w + 1) - 2 := by
  have hx := x.isLt
  have hlt := Nat.mod_lt y.toNat hpos
  rw [accAdd_reduce_toNat hn x y hpos hM, Nat.pow_succ']
  omega

/-- Series results of an operand-width limit fit the operand width, in the accumulator too (R69). -/
theorem seriesFix_portModulus_le {w n : Nat} (hn : w + 1 ≤ n) {q : BitVec n} (L : BitVec w)
    (h : q.toNat < (portModulus L).toNat) :
    (seriesFix q (promote n (portModulus L))).toNat ≤ maxValue w := by
  have hL : (promote n (portModulus L)).toNat = L.toNat := by rw [promote_toNat hn, portModulus_toNat]
  rw [portModulus_toNat] at h
  exact (seriesFix_le (hL ▸ h.le)).trans (hL ▸ Nat.le_sub_one_of_lt L.isLt)

/-- The adder's result is the same in every accumulator of at least W + 1 bits (R7). -/
theorem modAdd_toNat_congr {w n k : Nat} (hn : w + 1 ≤ n) (hk : w + 1 ≤ k) (x y : BitVec w) {M : BitVec (w + 1)}
    (hpos : 1 ≤ M.toNat) (hM : M.toNat ≤ 2 ^ w) : (modAdd n x y M).toNat = (modAdd k x y M).toNat :=
  (modAdd_toNat hn x y hpos hM).trans (modAdd_toNat hk x y hpos hM).symm

/-- The subtractor's result is the same in every accumulator of at least W + 1 bits (R7). -/
theorem modSub_toNat_congr {w n k : Nat} (hn : w + 1 ≤ n) (hk : w + 1 ≤ k) (x y : BitVec w) {M : BitVec (w + 1)}
    (hpos : 1 ≤ M.toNat) : (modSub n x y M).toNat = (modSub k x y M).toNat :=
  Int.ofNat_inj.mp ((modSub_toNat hn x y hpos).trans (modSub_toNat hk x y hpos).symm)

/-- Settles O13: each intermediate value is computed as a number by its own lemma, and the results as numbers do not mention
the accumulator width. -/
theorem accumulatorWidthIsNotObservable : Obligations.AccumulatorWidthIsNotObservable := by
  refine ⟨fun w n x y M hn hpos hM hw => ?_, fun w n k x y M hn hk hpos hM => ?_⟩
  · have hx : x.toNat ≤ maxValue w := Nat.le_sub_one_of_lt x.isLt
    have hy : y.toNat ≤ maxValue w := Nat.le_sub_one_of_lt y.isLt
    have hym := Nat.mod_lt y.toNat hpos
    have hadd := modAdd_lt hn x y hpos hM
    have hsub := modSub_lt hn x y hpos
    have hmax : M.toNat - 1 ≤ maxValue w := Nat.sub_le_sub_right hM 1
    have htwo : 2 ≤ 2 ^ w := Nat.pow_le_pow_right (by decide : 0 < 2) hw
    refine ⟨promote_toNat hn M, by rw [Nat.pow_succ']; omega, ?_, accAdd_reduce_le hn x y hpos hM, ?_, ?_, by omega,
      by omega, ?_⟩
    · rw [reduce_promote_toNat hn]
      exact (Nat.mod_le _ _).trans hy
    · rw [reduce_promote_toNat hn]
      intro h
      rw [accSub_reduce_toNat hn h]
      exact (Nat.sub_le _ _).trans hx
    · rw [reduce_promote_toNat hn]
      intro h
      rw [accSub_reduce_promote_toNat hn h, accSub_modulus_toNat hn hpos h]
      omega
    · rintro L - rfl
      exact ⟨seriesFix_portModulus_le hn L hadd, seriesFix_portModulus_le hn L hsub⟩
  · have hadd := modAdd_toNat_congr hn hk x y hpos hM
    have hsub := modSub_toNat_congr hn hk x y hpos
    have hmod : (promote n M).toNat = (promote k M).toNat := by rw [promote_toNat hn, promote_toNat hk]
    have hred : (reduce (promote n x) (promote n M)).toNat = (reduce (promote k x) (promote k M)).toNat := by
      rw [reduce_promote_toNat hn, reduce_promote_toNat hk]
    exact ⟨hadd, hsub, driveResult_seriesFix_congr hadd hmod, driveResult_seriesFix_congr hsub hmod,
      driveResult_seriesFix_congr hred hmod⟩

/-! ## One instruction -/

/-- Answering a request changes the ports of the WAU it is presented to, and nothing else (10_state.md R29). -/
theorem sameBut_evaluated (s : State) (p : Presented) : SameBut p.width s (s.evaluated p) := by
  cases p <;> simp [SameBut, State.evaluated, Presented.width]

/-- Settles O22: `exec` is `Exec_W` of the request, delivered on the ports the request names. -/
theorem everyInstructionCompletes : Obligations.EveryInstructionCompletes := fun i s =>
  ⟨s.evaluated i.request, exec_eq_evaluated i s, output_evaluated s i.request, sameBut_evaluated s i.request⟩

/-! ## One step of the host's script -/

theorem hostMove_of_resolve_ok {s : State} {e : Entry} {rest : List Entry} {p : Presented}
    (hs : s.run.script = e :: rest) (hr : resolve e s.run.responses = .ok p) : s.hostMove = .present p rest := by
  simp only [State.hostMove, hs, hr]

theorem hostMove_of_resolve_error {s : State} {e : Entry} {rest : List Entry} {why : Refusal}
    (hs : s.run.script = e :: rest) (hr : resolve e s.run.responses = .error why) : s.hostMove = .reject why := by
  simp only [State.hostMove, hs, hr]

theorem step_of_reject {s : State} {why : Refusal} (h : s.hostMove = .reject why) : step s = .refused why := by
  simp only [step, h]

/-- Settles O44: the step of a resolved head, with the decoded instruction's execution written as `Exec_W` of the request. -/
theorem stepRunsTheDecodedRequest : Obligations.StepRunsTheDecodedRequest := by
  intro s e rest p hs hr
  refine ⟨(s.withScript rest).evaluated p, answerOf p, ?_, output_evaluated _ p, ?_⟩
  · rw [exec_eq_evaluated, request_decode]
    rfl
  · rw [step_of_present (hostMove_of_resolve_ok hs hr), State.record, State.evaluated_run, State.withScript_run]

/-! ## A run of the host's script (70_reset_and_hazards.md R133) -/

/-- The step of a resolved head takes it off the script and appends `Exec_W` of its request to the responses. -/
theorem exists_step_of_resolve_ok {s : State} {e : Entry} {rest : List Entry} {p : Presented}
    (hs : s.run.script = e :: rest) (hr : resolve e s.run.responses = .ok p) :
    ∃ t, step s = .next t ∧ t.run.script = rest ∧ t.run.responses = s.run.responses ++ [answerOf p] :=
  ⟨_, step_of_present (hostMove_of_resolve_ok hs hr), by simp, by simp⟩

/-- Requests written as literals are all answered, whatever was sampled before. -/
theorem answers_map_entry (qs : List Presented) (rs : List Sampled) :
    answers rs (qs.map Presented.entry) = .ok (rs ++ qs.map answerOf) := by
  induction qs generalizing rs with
  | nil => simp [answers]
  | cons q qs ih => simp [answers, resolve_entry, ih]

/-- A script whose entries all give requests runs to its end, and the host holds their answers. -/
theorem run_of_answers_ok (es : List Entry) (s : State) (rs : List Sampled) (hs : s.run.script = es)
    (ha : answers s.run.responses es = .ok rs) :
    ∃ t : State, Host.Core.run core es.length s = .next t ∧ t.run.script = [] ∧ t.run.responses = rs := by
  induction es generalizing s with
  | nil =>
    cases ha
    exact ⟨s, Laws.run_zero core s, hs, rfl⟩
  | cons e rest ih =>
    rw [answers] at ha
    split at ha
    next p hr =>
      obtain ⟨t, hstep, hscript, hresp⟩ := exists_step_of_resolve_ok hs hr
      obtain ⟨u, hrun, hu⟩ := ih t hscript (hresp ▸ ha)
      exact ⟨u, (Laws.run_succ core rest.length s t hstep).trans hrun, hu⟩
    next => cases ha

/-- A script one of whose entries gives no request ends in the host's rejection of the first such entry. -/
theorem run_of_answers_error (es : List Entry) (s : State) (why : Refusal) (hs : s.run.script = es)
    (ha : answers s.run.responses es = .error why) : Host.Core.run core es.length s = .refused why := by
  induction es generalizing s with
  | nil => cases ha
  | cons e rest ih =>
    rw [answers] at ha
    split at ha
    next p hr =>
      obtain ⟨t, hstep, hscript, hresp⟩ := exists_step_of_resolve_ok hs hr
      exact (Laws.run_succ core rest.length s t hstep).trans (ih t hscript (hresp ▸ ha))
    next hr =>
      cases ha
      exact Laws.run_refused core rest.length s why (step_of_reject (hostMove_of_resolve_error hs hr))

/-- Settles O47: by induction on the script, one step for each entry; a script of requests is the case without `$n`. -/
theorem runAnswersEveryRequest : Obligations.RunAnswersEveryRequest := by
  refine ⟨fun qs s hs => ?_, run_of_answers_ok, run_of_answers_error⟩
  have h := run_of_answers_ok _ s _ hs (answers_map_entry qs _)
  rwa [List.length_map] at h

end Sys2Proof.Machine
end

section
/-! PROOFS. The rules of 10_state.md. First the invariant that outputs follow inputs (R19, R125) and the independence of requests
(R29, R37); then what each operation answers, from which follow the inputs that matter (R16), the ranges (R17), the order of the
faults (R18, R109) and exactly which packed response words are produced (R55). -/

namespace Sys2Proof.Machine

/-! ## Settled machines (R19, R125) -/

theorem settled_settle (s : State) : s.settle.Settled := ⟨rfl, rfl, rfl, rfl⟩

/-- Answering a request keeps a settled machine settled: the addressed WAU carries `Exec_W` of its new inputs, the others are
left alone. -/
theorem State.Settled.evaluated {s : State} (h : s.Settled) (p : Presented) : (s.evaluated p).Settled := by
  obtain ⟨h8, h16, h32, h64⟩ := h
  cases p with
  | r8 q => exact ⟨rfl, h16, h32, h64⟩
  | r16 q => exact ⟨h8, rfl, h32, h64⟩
  | r32 q => exact ⟨h8, h16, rfl, h64⟩
  | r64 q => exact ⟨h8, h16, h32, rfl⟩

/-- The host's record is on no port. -/
theorem settled_record {s : State} {y : Sampled} : (s.record y).Settled ↔ s.Settled := Iff.rfl

/-- The host's script is on no port. -/
theorem settled_withScript {s : State} {es : List Entry} : (s.withScript es).Settled ↔ s.Settled := Iff.rfl

theorem State.Settled.exec {i : Instr} {s t : State} (h : s.Settled) (hi : exec i s = .next t) : t.Settled := by
  rw [exec_eq_evaluated] at hi
  cases hi
  exact h.evaluated i.request

theorem State.Settled.step {s t : State} (h : s.Settled) (hs : step s = .next t) : t.Settled := by
  obtain ⟨-, hstep⟩ | ⟨p, rest, -, hstep⟩ | ⟨why, -, hstep⟩ := step_cases s <;> rw [hstep] at hs <;> cases hs
  · exact settled_settle s
  · exact settled_record.mpr ((settled_withScript.mpr h).evaluated p)

theorem step_of_script_nil {s : State} (h : s.run.script = []) : step s = .next s.settle := by
  simp only [Machine.step, State.hostMove, h]

/-- Settles O43: a step settles every output, or answers one request, and the host's list is on no port. -/
theorem outputsFollowInputs : Obligations.OutputsFollowInputs := by
  refine ⟨fun s t => State.Settled.step, fun s t hs ht => ?_, fun i s t => State.Settled.exec⟩
  rw [step_of_script_nil hs] at ht
  cases ht
  exact settled_settle s

/-- Settles O42: undriven inputs carry no request, and the outputs beside them are unspecified. -/
theorem resetIsSettled : Obligations.ResetIsSettled := ⟨rfl, rfl, rfl, rfl⟩

/-- Settles O41: each field of the start state is the one stated, and a run without responses has no fault. -/
theorem resetState : Obligations.ResetState := ⟨rfl, rfl, rfl, rfl, rfl, rfl, rfl⟩

/-! ## Requests to different WAUs (R29, R37) -/

/-- What one WAU does is not seen on the outputs of another. -/
theorem SameBut.output_eq {wd wd' : Width} {s t : State} (h : SameBut wd s t) (hne : wd ≠ wd') :
    t.output wd' = s.output wd' := by
  obtain ⟨h8, h16, h32, h64, -⟩ := h
  cases wd' with
  | w8 => rw [State.output, State.output, h8 hne]
  | w16 => rw [State.output, State.output, h16 hne]
  | w32 => rw [State.output, State.output, h32 hne]
  | w64 => rw [State.output, State.output, h64 hne]

theorem evaluated_comm (s : State) {p p' : Presented} (h : p.width ≠ p'.width) :
    (s.evaluated p).evaluated p' = (s.evaluated p').evaluated p := by
  cases p with
  | r8 q => cases p' with
    | r8 q' => exact absurd rfl h
    | _ => rfl
  | r16 q => cases p' with
    | r16 q' => exact absurd rfl h
    | _ => rfl
  | r32 q => cases p' with
    | r32 q' => exact absurd rfl h
    | _ => rfl
  | r64 q => cases p' with
    | r64 q' => exact absurd rfl h
    | _ => rfl

/-- Settles O38: each response is `Exec_W` of its own request whatever came before, and answers to different WAUs commute. -/
theorem requestsAreIndependent : Obligations.RequestsAreIndependent := by
  intro i j s
  refine ⟨_, _, _, _, exec_eq_evaluated i s, exec_eq_evaluated j _, exec_eq_evaluated j s, exec_eq_evaluated i _, ?_, ?_,
    fun hne => ⟨evaluated_comm s hne, (sameBut_evaluated _ j.request).output_eq hne.symm⟩⟩
  · rw [output_evaluated, output_evaluated]
  · rw [output_evaluated, output_evaluated]

/-! ## The response of each operation -/

section
variable {w : Nat} (a b m : BitVec w)

@[simp] theorem ask_rotaryAdd : ask .rotaryAdd a b m = rotaryAdd a b := rfl

@[simp] theorem ask_rotarySub : ask .rotarySub a b m = rotarySub a b := rfl

@[simp] theorem ask_cycleAdd : ask .cycleAdd a b m = cycleAdd a b m := rfl

@[simp] theorem ask_cycleSub : ask .cycleSub a b m = cycleSub a b m := rfl

@[simp] theorem ask_seriesAdd : ask .seriesAdd a b m = seriesAdd a b m := rfl

@[simp] theorem ask_seriesSub : ask .seriesSub a b m = seriesSub a b m := rfl

@[simp] theorem ask_seriesMod : ask .seriesMod a b m = seriesMod a m := rfl

@[simp] theorem ask_reserved : ask .reserved a b m = .fault .illegalOp := rfl

end

/-- `Exec_W` in the form of the spec's laws: the operation that the code selects, asked of the operand ports. -/
theorem evaluate_eq_ask {w : Nat} (q : Request w) : evaluate q = ask (Op.ofCode q.op) q.a q.b q.m := by
  rw [ask, code_ofCode]

/-- The zero-modulus test lets a result through where `m` is not 0. -/
theorem unlessZeroModulus_eq_ok_iff {w : Nat} {m r : BitVec w} {p : Response w} {pv : Bool} :
    unlessZeroModulus m p = .ok r pv ↔ m ≠ 0 ∧ p = .ok r pv := by
  by_cases h : m = 0
  · simp [h]
  · rw [unlessZeroModulus_of_ne h, and_iff_right h]

/-- The zero-modulus test adds no fault but its own. -/
theorem unlessZeroModulus_ok_ne_illegalOp {w : Nat} (m r : BitVec w) (pv : Bool) :
    unlessZeroModulus m (.ok r pv) ≠ .fault .illegalOp := by
  by_cases h : m = 0
  · simp [h]
  · rw [unlessZeroModulus_of_ne h]
    nofun

/-! ## The inputs that matter (R16, R48) -/

/-- An operation asked of operands that agree where it reads them gives one answer. -/
theorem ask_congr {w : Nat} {o : Op} {a a' b b' m m' : BitVec w} (ha : readsA o = true → a = a')
    (hb : readsB o = true → b = b') (hm : readsM o = true → m = m') : ask o a b m = ask o a' b' m' := by
  cases o with
  | rotaryAdd | rotarySub => simp [ha rfl, hb rfl]
  | cycleAdd | cycleSub | seriesAdd | seriesSub => rw [ha rfl, hb rfl, hm rfl]
  | seriesMod => simp [ha rfl, hm rfl]
  | reserved => simp

/-- Settles O37: equal codes select one operation, and the ports show its answer. -/
theorem unreadInputsDoNotMatter : Obligations.UnreadInputsDoNotMatter := by
  intro w q q' hop ha hb hm
  have h : evaluate q = evaluate q' := by
    rw [evaluate_eq_ask, evaluate_eq_ask, ← hop]
    exact ask_congr ha hb hm
  exact ⟨h, congrArg Response.ports h⟩

/-! ## The order of the faults (R18, R109, R121) -/

/-- Only the reserved code is answered by ILLEGAL_OP (60_exceptions.md R106). -/
theorem eq_reserved_of_ask_eq_illegalOp {w : Nat} {o : Op} {a b m : BitVec w} (h : ask o a b m = .fault .illegalOp) :
    o = .reserved := by
  cases o with
  | rotaryAdd | rotarySub => cases h
  | reserved => rfl
  | cycleAdd | cycleSub | seriesAdd | seriesSub | seriesMod => exact absurd h (unlessZeroModulus_ok_ne_illegalOp _ _ _)

/-- A response with the `fault` port raised has neither an advisory bit nor a result. -/
theorem ports_of_fault_eq_one {w : Nat} {p : Response w} (h : p.ports.fault = 1) :
    p.ports.pv = 0 ∧ p.ports.r = 0 ∧ p.result? = none := by
  cases p with
  | ok r pv => exact absurd h (by decide : (0 : BitVec 1) ≠ 1)
  | fault c => exact ⟨rfl, rfl, rfl⟩

theorem seriesAdd_zero_limit {w : Nat} (a b : BitVec w) : seriesAdd a b 0 = .fault .zeroModulus := by
  rw [seriesAdd]
  exact unlessZeroModulus_zero _

/-- Settles O36: the reserved code never comes to the zero-modulus test, and that test ends SERIES_ADD before `pv` is driven. -/
theorem faultPriority : Obligations.FaultPriority := by
  intro w a b m
  have hzero : ask .seriesAdd 0 b (0 : BitVec w) = .fault .zeroModulus := by
    rw [ask_seriesAdd, seriesAdd_zero_limit]
  exact ⟨ask_reserved a b 0, hzero, by rw [hzero]; rfl, fun _ => ports_of_fault_eq_one,
    fun _ => eq_reserved_of_ask_eq_illegalOp⟩

/-! ## The ranges of the results (R17, R74, R82, R93) -/

/-- A width with a modulus other than 0 has an accumulator as wide as R7 asks. -/
theorem succ_le_accWidth_of_ne_zero {w : Nat} {m : BitVec w} (h : m ≠ 0) : w + 1 ≤ Config.accWidth w := by
  have : w ≠ 0 := by
    rintro rfl
    exact h BitVec.of_length_zero
  rw [Config.accWidth]
  omega

theorem portModulus_pos {w : Nat} {m : BitVec w} (h : m ≠ 0) : 1 ≤ (portModulus m).toNat := by
  rw [portModulus_toNat]
  exact Nat.pos_of_ne_zero fun h0 => h (BitVec.eq_of_toNat_eq h0)

theorem portModulus_le {w : Nat} (m : BitVec w) : (portModulus m).toNat ≤ 2 ^ w := by
  rw [portModulus_toNat]
  exact m.isLt.le

/-- A residue of the `m` port is driven unchanged, below `m`. -/
theorem driveResult_lt {w n : Nat} {m : BitVec w} {v : BitVec n} (h : v.toNat < (portModulus m).toNat) :
    (driveResult w v).toNat < m.toNat := by
  rw [driveResult_toNat (h.trans_le (portModulus_le m)), ← portModulus_toNat m]
  exact h

/-- A fixed-up residue of the limit is driven unchanged: the limit in place of 0. -/
theorem driveResult_seriesFix_toNat {w n : Nat} (hn : w + 1 ≤ n) {limit : BitVec w} {v : BitVec n}
    (h : v.toNat < (portModulus limit).toNat) :
    (driveResult w (seriesFix v (promote n (portModulus limit)))).toNat =
      if v.toNat = 0 then limit.toNat else v.toNat := by
  have hfix : (seriesFix v (promote n (portModulus limit))).toNat = if v.toNat = 0 then limit.toNat else v.toNat := by
    rw [seriesFix_toNat, promote_toNat hn, portModulus_toNat]
  rw [driveResult_toNat, hfix]
  rw [portModulus_toNat] at h
  rw [hfix]
  have := limit.isLt
  split <;> omega

/-- A fixed-up residue of the limit lies in [1, limit] on the `r` port. -/
theorem driveResult_seriesFix_mem {w n : Nat} (hn : w + 1 ≤ n) {limit : BitVec w} {v : BitVec n}
    (h : v.toNat < (portModulus limit).toNat) :
    1 ≤ (driveResult w (seriesFix v (promote n (portModulus limit)))).toNat ∧
      (driveResult w (seriesFix v (promote n (portModulus limit)))).toNat ≤ limit.toNat := by
  rw [driveResult_seriesFix_toNat hn h]
  rw [portModulus_toNat] at h
  split <;> omega

section
variable {w : Nat} {a b m r : BitVec w} {pv : Bool}

theorem lt_of_cycleAdd_eq_ok (h : cycleAdd a b m = .ok r pv) : pv = false ∧ r.toNat < m.toNat := by
  obtain ⟨hm, ⟨⟩⟩ := unlessZeroModulus_eq_ok_iff.mp h
  exact ⟨rfl, driveResult_lt (modAdd_lt (succ_le_accWidth_of_ne_zero hm) a b (portModulus_pos hm) (portModulus_le m))⟩

theorem lt_of_cycleSub_eq_ok (h : cycleSub a b m = .ok r pv) : pv = false ∧ r.toNat < m.toNat := by
  obtain ⟨hm, ⟨⟩⟩ := unlessZeroModulus_eq_ok_iff.mp h
  exact ⟨rfl, driveResult_lt (modSub_lt (succ_le_accWidth_of_ne_zero hm) a b (portModulus_pos hm))⟩

theorem mem_of_seriesAdd_eq_ok (h : seriesAdd a b m = .ok r pv) : 1 ≤ r.toNat ∧ r.toNat ≤ m.toNat := by
  obtain ⟨hm, ⟨⟩⟩ := unlessZeroModulus_eq_ok_iff.mp h
  have hn := succ_le_accWidth_of_ne_zero hm
  exact driveResult_seriesFix_mem hn (modAdd_lt hn a b (portModulus_pos hm) (portModulus_le m))

theorem mem_of_seriesSub_eq_ok (h : seriesSub a b m = .ok r pv) : 1 ≤ r.toNat ∧ r.toNat ≤ m.toNat := by
  obtain ⟨hm, ⟨⟩⟩ := unlessZeroModulus_eq_ok_iff.mp h
  have hn := succ_le_accWidth_of_ne_zero hm
  exact driveResult_seriesFix_mem hn (modSub_lt hn a b (portModulus_pos hm))

theorem mem_of_seriesMod_eq_ok (h : seriesMod a m = .ok r pv) : 1 ≤ r.toNat ∧ r.toNat ≤ m.toNat := by
  obtain ⟨hm, ⟨⟩⟩ := unlessZeroModulus_eq_ok_iff.mp h
  have hn := succ_le_accWidth_of_ne_zero hm
  refine driveResult_seriesFix_mem hn ?_
  rw [reduce_promote_toNat hn]
  exact Nat.mod_lt _ (portModulus_pos hm)

end

/-- All a result can be, by family, at every W: only the series family reports `pv`, and a result of its lies in [1, limit]. -/
theorem evaluate_ok_cases {w : Nat} {q : Request w} {r : BitVec w} {pv : Bool} (h : evaluate q = .ok r pv) :
    ((q.op = 0 ∨ q.op = 1) ∧ pv = false) ∨
    ((q.op = 2 ∨ q.op = 3) ∧ pv = false ∧ r.toNat < q.m.toNat) ∨
    ((q.op = 4 ∨ q.op = 5 ∨ q.op = 6) ∧ 1 ≤ r.toNat ∧ r.toNat ≤ q.m.toNat) := by
  have hop := code_ofCode q.op
  rw [evaluate_eq_ask] at h
  cases ho : Op.ofCode q.op <;> rw [ho] at h hop <;> rw [← hop]
  case rotaryAdd =>
    cases h
    exact .inl ⟨.inl rfl, rfl⟩
  case rotarySub =>
    cases h
    exact .inl ⟨.inr rfl, rfl⟩
  case cycleAdd => exact .inr (.inl ⟨.inl rfl, lt_of_cycleAdd_eq_ok h⟩)
  case cycleSub => exact .inr (.inl ⟨.inr rfl, lt_of_cycleSub_eq_ok h⟩)
  case seriesAdd => exact .inr (.inr ⟨.inl rfl, mem_of_seriesAdd_eq_ok h⟩)
  case seriesSub => exact .inr (.inr ⟨.inr (.inl rfl), mem_of_seriesSub_eq_ok h⟩)
  case seriesMod => exact .inr (.inr ⟨.inr (.inr rfl), mem_of_seriesMod_eq_ok h⟩)
  case reserved => cases h

/-- Settles O32: the range of each family, and that the families share no code. -/
theorem resultsLieInRange : Obligations.ResultsLieInRange := by
  intro wd q r pv h
  have hmax : r.toNat ≤ maxValue wd.bits := Nat.le_sub_one_of_lt r.isLt
  obtain ⟨hop, -⟩ | ⟨hop, -, hlt⟩ | ⟨hop, hpos, hle⟩ := evaluate_ok_cases h
  · obtain hop | hop := hop <;> simp [hop, hmax]
  · have hcycle : r.toNat ≤ q.m.toNat - 1 ∧ 1 ≤ q.m.toNat := by omega
    obtain hop | hop := hop <;> simp [hop, hmax, hcycle]
  · obtain hop | hop | hop := hop <;> simp [hop, hmax, hpos, hle]

/-! ## The responses that are produced (R17, R18) -/

/-- ROTARY_ADD wraps at 2^W, at every W. -/
theorem rotaryAdd_eq {w : Nat} (a b : BitVec w) : rotaryAdd a b = .ok (a + b) false := by
  obtain rfl | hw := Nat.eq_zero_or_pos w
  · exact congrArg (Response.ok · false) (Subsingleton.elim _ _)
  · have hn : w + 1 ≤ Config.accWidth w := by
      rw [Config.accWidth]
      omega
    have hM := nativeModulus_toNat w
    have hpos : 1 ≤ (nativeModulus w).toNat := hM ▸ Nat.one_le_two_pow
    refine congrArg (Response.ok · false) (BitVec.eq_of_toNat_eq ?_)
    rw [driveResult_toNat (hM ▸ modAdd_lt hn a b hpos hM.le), modAdd_toNat hn a b hpos hM.le, hM, BitVec.toNat_add]

/-- SERIES_ADD of two zeros answers the limit, with the advisory bit: 0 lies below the series. -/
theorem seriesAdd_zero_zero {w : Nat} {limit : BitVec w} (h : limit ≠ 0) : seriesAdd 0 0 limit = .ok limit true := by
  have hn := succ_le_accWidth_of_ne_zero h
  have hpos := portModulus_pos h
  have hzero : (modAdd (Config.accWidth w) (0 : BitVec w) 0 (portModulus limit)).toNat = 0 := by
    rw [modAdd_toNat hn 0 0 hpos (portModulus_le limit)]
    simp
  have hr := driveResult_seriesFix_toNat hn (limit := limit) (hzero.trans_lt hpos)
  rw [if_pos hzero] at hr
  rw [seriesAdd, unlessZeroModulus_of_ne h, BitVec.eq_of_toNat_eq hr, (seriesPv_iff 0 limit).mpr (.inl rfl)]

/-- Exactly one response is never given: the result 0 with the advisory bit, since only the series family reports `pv` and its
results start at 1. -/
theorem exists_evaluate_eq_iff {w : Nat} (p : Response w) : (∃ q, evaluate q = p) ↔ p ≠ .ok 0 true := by
  constructor
  · rintro ⟨q, rfl⟩ h
    obtain ⟨-, hpv⟩ | ⟨-, hpv, -⟩ | ⟨-, hpos, -⟩ := evaluate_ok_cases h
    · cases hpv
    · cases hpv
    · simp at hpos
  · intro hp
    match p with
    | .ok r false =>
      exact ⟨⟨Op.code .rotaryAdd, r, 0, 0⟩, (rotaryAdd_eq r 0).trans (congrArg (Response.ok · false) (BitVec.add_zero r))⟩
    | .ok r true => exact ⟨⟨Op.code .seriesAdd, 0, 0, r⟩, seriesAdd_zero_zero fun h => hp (h ▸ rfl)⟩
    | .fault .zeroModulus => exact ⟨⟨Op.code .seriesAdd, 0, 0, 0⟩, seriesAdd_zero_limit 0 0⟩
    | .fault .illegalOp => exact ⟨⟨Op.code .reserved, 0, 0, 0⟩, rfl⟩

end Sys2Proof.Machine

namespace Sys2Proof

/-! ## The packed response word (R44, R55) -/

/-- The fields of a packed response word as numbers. -/
theorem OutPorts.ofWord_toNat {w : Nat} (x : BitVec (Config.rspWidth w)) :
    (OutPorts.ofWord x).r.toNat = x.toNat % 2 ^ w ∧ (OutPorts.ofWord x).fault.toNat = x.toNat / 2 ^ w % 2 ∧
      (OutPorts.ofWord x).cause.toNat = x.toNat / 2 ^ w / 2 % 4 ∧ (OutPorts.ofWord x).pv.toNat = x.toNat / 2 ^ w / 8 % 2 := by
  simp [OutPorts.ofWord, BitVec.extractLsb'_toNat, Nat.shiftRight_eq_div_pow, Nat.pow_add, Nat.div_div_eq_div_mul]

/-- The packed word of the fields of a word is that word. -/
theorem OutPorts.word_ofWord {w : Nat} (x : BitVec (Config.rspWidth w)) : (OutPorts.ofWord x).word = x := by
  obtain ⟨hr, hfault, hcause, hpv⟩ := OutPorts.ofWord_toNat x
  have hhigh : x.toNat / 2 ^ w < 16 := by
    rw [Nat.div_lt_iff_lt_mul (Nat.two_pow_pos w), ← Nat.pow_add' 2 w 4]
    exact x.isLt
  have hfields : ∀ y < 16, (y / 8 % 2 * 2 ^ 2 + y / 2 % 4) * 2 ^ 1 + y % 2 = y := by decide
  apply BitVec.eq_of_toNat_eq
  rw [OutPorts.word_toNat, hr, hfault, hcause, hpv, hfields _ hhigh, Nat.div_add_mod']

/-- The fields of the packed word of four port values are those values. -/
theorem OutPorts.ofWord_word {w : Nat} (o : OutPorts w) : OutPorts.ofWord o.word = o := by
  obtain ⟨hr, hfault, hcause, hpv⟩ := OutPorts.ofWord_toNat o.word
  have hlow : o.word.toNat % 2 ^ w = o.r.toNat := by
    rw [OutPorts.word_toNat, Nat.mul_add_mod', Nat.mod_eq_of_lt o.r.isLt]
  have hhigh : o.word.toNat / 2 ^ w = (o.pv.toNat * 2 ^ 2 + o.cause.toNat) * 2 ^ 1 + o.fault.toNat := by
    rw [OutPorts.word_toNat, Nat.mul_comm, Nat.mul_add_div (Nat.two_pow_pos w), Nat.div_eq_of_lt o.r.isLt, Nat.add_zero]
  rw [hlow] at hr
  rw [hhigh] at hfault hcause hpv
  have := o.fault.isLt
  have := o.cause.isLt
  have := o.pv.isLt
  have hfault : (OutPorts.ofWord o.word).fault = o.fault := BitVec.eq_of_toNat_eq (by omega)
  have hcause : (OutPorts.ofWord o.word).cause = o.cause := BitVec.eq_of_toNat_eq (by omega)
  have hpv : (OutPorts.ofWord o.word).pv = o.pv := BitVec.eq_of_toNat_eq (by omega)
  cases o
  rw [OutPorts.mk.injEq]
  exact ⟨BitVec.eq_of_toNat_eq hr, hfault, hcause, hpv⟩

/-- The response read from port values shows those values, and is not the one that is never given. -/
theorem ports_of_response?_eq_some {w : Nat} {o : OutPorts w} {p : Response w} (h : o.response? = some p) :
    p.ports = o ∧ p ≠ .ok 0 true := by
  obtain ⟨r, fault, cause, pv⟩ := o
  have hbit : ∀ c : BitVec 1, c ≠ 0 → c = 1 := by decide
  have hofBool : ∀ c : BitVec 1, BitVec.ofBool (c == 1) = c := by decide
  simp only [OutPorts.response?] at h
  split_ifs at h with hfault hcause hnever hzero hzm hil <;> cases h
  · subst hfault hcause
    exact ⟨by rw [Response.ports, hofBool], by simpa [and_comm] using hnever⟩
  · cases hbit fault hfault
    obtain ⟨rfl, rfl⟩ := hzero
    exact ⟨by rw [hzm]; rfl, nofun⟩
  · cases hbit fault hfault
    obtain ⟨rfl, rfl⟩ := hzero
    exact ⟨by rw [hil]; rfl, nofun⟩

/-- Every other response is read back from the ports it is shown on. -/
theorem response?_ports {w : Nat} {p : Response w} (h : p ≠ .ok 0 true) : p.ports.response? = some p := by
  match p with
  | .ok r false => rfl
  | .ok r true =>
    have hr : ¬ ((1 : BitVec 1) = 1 ∧ r = 0) := fun ⟨_, h0⟩ => h (h0 ▸ rfl)
    exact if_neg hr
  | .fault .zeroModulus => rfl
  | .fault .illegalOp => rfl

/-- A word is read as a response exactly when it is its packed word and some request is answered with it. -/
theorem Response.ofWord_eq_some_iff {w : Nat} (x : BitVec (Config.rspWidth w)) (p : Response w) :
    Response.ofWord x = some p ↔ p.word = x ∧ ∃ q, Machine.evaluate q = p := by
  rw [Machine.exists_evaluate_eq_iff]
  constructor
  · intro h
    obtain ⟨hports, hne⟩ := ports_of_response?_eq_some h
    exact ⟨by rw [Response.word, hports, OutPorts.word_ofWord], hne⟩
  · rintro ⟨rfl, hne⟩
    rw [Response.ofWord, Response.word, OutPorts.ofWord_word, response?_ports hne]

end Sys2Proof

namespace Sys2Proof.Machine

/-- Settles O8: three readings of one equivalence. -/
theorem responseWordDecodes : Obligations.ResponseWordDecodes := by
  refine ⟨fun w q => (Response.ofWord_eq_some_iff _ _).mpr ⟨rfl, q, rfl⟩, fun w x p => (Response.ofWord_eq_some_iff x p).mp,
    fun w x => ?_⟩
  simp only [Option.eq_none_iff_forall_ne_some, ne_eq, Response.ofWord_eq_some_iff]
  exact ⟨fun h q hq => h (evaluate q) ⟨hq, q, rfl⟩, fun h p ⟨hp, q, hq⟩ => h q (hq ▸ hp)⟩

end Sys2Proof.Machine
end

section
/-! PROOFS. The rules of 20_memory.md. First the bytes of a word (R32), then the two packed words at their WAUs, from which
follow that requests and responses are read back from their bytes; then that a repeated evaluation changes nothing (R34), and
that a step of the host ends in nothing but the host's own rejection (R39). -/

namespace Sys2Proof

/-! ## Bytes, least significant first (R32) -/

theorem ofBytes_toBytes (k x : Nat) : ofBytes (toBytes k x) = x % 256 ^ k := by
  induction k generalizing x with
  | zero => rw [pow_zero, Nat.mod_one, toBytes, ofBytes]
  | succ k ih => rw [toBytes, ofBytes, ih, BitVec.toNat_ofNat, pow_succ' 256, Nat.mod_mul]

theorem toBytes_getElem? {k j : Nat} (x : Nat) (h : j < k) :
    (toBytes k x)[j]? = some (BitVec.ofNat 8 (x / 256 ^ j)) := by
  induction k generalizing x j with
  | zero => exact absurd h j.not_lt_zero
  | succ k ih =>
    cases j with
    | zero => simp [toBytes]
    | succ j => rw [toBytes, List.getElem?_cons_succ, ih _ (Nat.lt_of_succ_lt_succ h), pow_succ', Nat.div_div_eq_div_mul]

/-- Settles O9: each part by induction on the number of bytes. -/
theorem bytesAreLittleEndian : Obligations.BytesAreLittleEndian := fun k x =>
  ⟨toBytes_length k x, ofBytes_toBytes k x, fun _ => toBytes_getElem? x⟩

/-! ## The packed request word (R43) -/

/-- The fields of a packed request word as numbers. -/
theorem Request.ofWord_toNat {w : Nat} (x : BitVec (Config.reqWidth w)) :
    (Request.ofWord x).a.toNat = x.toNat % 2 ^ w ∧ (Request.ofWord x).b.toNat = x.toNat / 2 ^ w % 2 ^ w ∧
      (Request.ofWord x).m.toNat = x.toNat / 2 ^ (2 * w) % 2 ^ w ∧
      (Request.ofWord x).op.toNat = x.toNat / 2 ^ (3 * w) % 2 ^ 3 := by
  simp [Request.ofWord, BitVec.extractLsb'_toNat, Nat.shiftRight_eq_div_pow]

/-- The places of the fields of REQ, counted in whole fields. -/
theorem div_two_pow_fields (x w : Nat) : x / 2 ^ (2 * w) = x / 2 ^ w / 2 ^ w ∧ x / 2 ^ (3 * w) = x / 2 ^ w / 2 ^ w / 2 ^ w := by
  have h3 : 3 * w = w + w + w := by omega
  simp only [h3, Nat.two_mul, Nat.pow_add, Nat.div_div_eq_div_mul, and_self]

/-- The packed word of the fields of a word is that word. -/
theorem Request.word_ofWord {w : Nat} (x : BitVec (Config.reqWidth w)) : (Request.ofWord x).word = x := by
  obtain ⟨ha, hb, hm, hop⟩ := Request.ofWord_toNat x
  obtain ⟨h2, h3⟩ := div_two_pow_fields x.toNat w
  have hhigh : x.toNat / 2 ^ (3 * w) < 2 ^ 3 := by
    rw [Nat.div_lt_iff_lt_mul (Nat.two_pow_pos _), ← Nat.pow_add']
    exact x.isLt
  apply BitVec.eq_of_toNat_eq
  rw [Request.word_toNat, ha, hb, hm, hop, Nat.mod_eq_of_lt hhigh, h3, h2, Nat.div_add_mod', Nat.div_add_mod',
    Nat.div_add_mod']

/-- The fields of the packed word of a request are its own. -/
theorem Request.ofWord_word {w : Nat} (q : Request w) : Request.ofWord q.word = q := by
  obtain ⟨ha, hb, hm, hop⟩ := Request.ofWord_toNat q.word
  obtain ⟨h2, h3⟩ := div_two_pow_fields q.word.toNat w
  have hdiv : ∀ y (v : BitVec w), (y * 2 ^ w + v.toNat) / 2 ^ w = y := fun y v => by
    rw [Nat.mul_comm, Nat.mul_add_div (Nat.two_pow_pos w), Nat.div_eq_of_lt v.isLt, Nat.add_zero]
  have hmod : ∀ y (v : BitVec w), (y * 2 ^ w + v.toNat) % 2 ^ w = v.toNat := fun y v => by
    rw [Nat.mul_add_mod', Nat.mod_eq_of_lt v.isLt]
  rw [h2] at hm
  rw [h3] at hop
  rw [Request.word_toNat] at ha hb hm hop
  simp only [hdiv, hmod, Nat.mod_eq_of_lt q.op.isLt] at ha hb hm hop
  cases q
  rw [Request.mk.injEq]
  exact ⟨BitVec.eq_of_toNat_eq hop, BitVec.eq_of_toNat_eq ha, BitVec.eq_of_toNat_eq hb, BitVec.eq_of_toNat_eq hm⟩

/-! ## Requests as bytes (R32, R43) -/

theorem Presented.width_ofWord (wd : Width) (x : Nat) : (Presented.ofWord wd x).width = wd := by
  cases wd <;> rfl

/-- Bits above REQW are ignored. -/
theorem Presented.word_ofWord (wd : Width) (x : Nat) :
    (Presented.ofWord wd x).word = x % 2 ^ Config.reqWidth wd.bits := by
  cases wd <;> simp only [Presented.ofWord, Presented.word, Request.word_ofWord, BitVec.toNat_ofNat]

theorem Presented.ofWord_word (p : Presented) : Presented.ofWord p.width p.word = p := by
  cases p <;> simp only [Presented.width, Presented.ofWord, Presented.word, BitVec.ofNat_toNat, BitVec.setWidth_eq,
    Request.ofWord_word]

theorem Presented.word_lt (p : Presented) : p.word < 2 ^ Config.reqWidth p.width.bits := by
  cases p <;> exact BitVec.isLt _

/-- The bytes of a request hold its whole word. -/
theorem reqWidth_le_reqBytes (wd : Width) : 2 ^ Config.reqWidth wd.bits ≤ 256 ^ reqBytes wd := by
  cases wd <;> decide

/-- The padding of a serialised request is 0: the number in its bytes is the packed word. -/
theorem Presented.ofBytes_bytes (p : Presented) : ofBytes p.bytes = p.word := by
  rw [Presented.bytes, ofBytes_toBytes, Nat.mod_eq_of_lt (p.word_lt.trans_le (reqWidth_le_reqBytes _))]

/-- The decoder of the ports reads every instruction from the request it is (R45). -/
theorem decode_request (i : Instr) : decode i.request = i := by
  cases i <;> rfl

/-- Bytes decode exactly when they have the one length of a request, and then to what their number without the padding is. -/
theorem decodeBytes_eq_ok_iff {wd : Width} {bs : List Byte} {i : Instr} :
    decodeBytes wd bs = .ok i ↔ bs.length = reqBytes wd ∧ decode (Presented.ofWord wd (ofBytes bs)) = i := by
  rw [decodeBytes, requestOfBytes]
  split_ifs with h <;> simp [h]

/-- Settles O3: the bytes of the request hold its whole word, whose fields are the request's, and the decoder of the ports reads
the instruction from them. -/
theorem decodeInvertsEncode : Obligations.DecodeInvertsEncode := fun i =>
  decodeBytes_eq_ok_iff.mpr ⟨toBytes_length _ _, by
    rw [encode, Presented.ofBytes_bytes, Presented.ofWord_word, decode_request]⟩

/-- Settles O4: the request of what was decoded is the one read from the bytes, so its word is their number without the padding. -/
theorem encodeInvertsDecode : Obligations.EncodeInvertsDecode := by
  intro wd bs i h
  obtain ⟨hlen, rfl⟩ := decodeBytes_eq_ok_iff.mp h
  rw [encode, Machine.request_decode, Presented.bytes, toBytes_length, Presented.width_ofWord]
  exact ⟨rfl, hlen.symm, Presented.word_ofWord wd _⟩

/-! ## Responses as bytes (R32, R44, R55) -/

/-- The padding of a serialised response is 0: the number in its bytes is the packed word. -/
theorem Sampled.ofBytes_bytes (y : Sampled) : ofBytes y.bytes = y.word := by
  rw [Sampled.bytes, ofBytes_toBytes, Nat.mod_eq_of_lt (y.word_lt.trans_le (rspWidth_le_rspBytes _))]

/-- What a WAU reads from a number: the response whose packed word it is without the padding, if some request is answered
with it. `c` names the WAU. -/
theorem map_ofWord_ofNat_eq_some_iff {w x : Nat} {c : Response w → Sampled} {y : Sampled} :
    (Response.ofWord (BitVec.ofNat (Config.rspWidth w) x)).map c = some y ↔
      ∃ q : Request w, (Machine.evaluate q).word.toNat = x % 2 ^ Config.rspWidth w ∧ c (Machine.evaluate q) = y := by
  simp only [Option.map_eq_some_iff, Response.ofWord_eq_some_iff, ← BitVec.toNat_inj, BitVec.toNat_ofNat]
  constructor
  · rintro ⟨_, ⟨hword, q, rfl⟩, rfl⟩
    exact ⟨q, hword, rfl⟩
  · rintro ⟨q, hword, rfl⟩
    exact ⟨_, ⟨hword, q, rfl⟩, rfl⟩

/-- A number is read as a response exactly when it is that of some request's answer, once the padding is dropped. -/
theorem Sampled.ofWord_eq_some_iff {wd : Width} {x : Nat} {y : Sampled} :
    Sampled.ofWord wd x = some y ↔
      ∃ p : Presented, p.width = wd ∧ Machine.answerOf p = y ∧ y.word = x % 2 ^ Config.rspWidth wd.bits := by
  constructor
  · intro h
    cases wd <;> obtain ⟨q, hword, rfl⟩ := map_ofWord_ofNat_eq_some_iff.mp h
    · exact ⟨.r8 q, rfl, rfl, hword⟩
    · exact ⟨.r16 q, rfl, rfl, hword⟩
    · exact ⟨.r32 q, rfl, rfl, hword⟩
    · exact ⟨.r64 q, rfl, rfl, hword⟩
  · rintro ⟨p, rfl, rfl, hword⟩
    cases p <;> exact map_ofWord_ofNat_eq_some_iff.mpr ⟨_, hword, rfl⟩

/-- All that reading a response can come to. -/
theorem responseOfBytes_cases (wd : Width) (bs : List Byte) :
    (bs.length ≠ rspBytes wd ∧ responseOfBytes wd bs = .error .wrongLength) ∨
    (bs.length = rspBytes wd ∧ Sampled.ofWord wd (ofBytes bs) = none ∧ responseOfBytes wd bs = .error .neverProduced) ∨
    (∃ y, bs.length = rspBytes wd ∧ Sampled.ofWord wd (ofBytes bs) = some y ∧ responseOfBytes wd bs = .ok y) := by
  by_cases h : bs.length = rspBytes wd
  · cases hw : Sampled.ofWord wd (ofBytes bs) with
    | none => exact .inr (.inl ⟨h, rfl, by simp only [responseOfBytes, if_pos h, hw]⟩)
    | some y => exact .inr (.inr ⟨y, h, rfl, by simp only [responseOfBytes, if_pos h, hw]⟩)
  · exact .inl ⟨h, if_neg h⟩

theorem responseOfBytes_eq_ok_iff {wd : Width} {bs : List Byte} {y : Sampled} :
    responseOfBytes wd bs = .ok y ↔ bs.length = rspBytes wd ∧ Sampled.ofWord wd (ofBytes bs) = some y := by
  obtain ⟨h, hr⟩ | ⟨h, hw, hr⟩ | ⟨z, h, hw, hr⟩ := responseOfBytes_cases wd bs <;> simp [*]

theorem responseOfBytes_eq_wrongLength_iff {wd : Width} {bs : List Byte} :
    responseOfBytes wd bs = .error .wrongLength ↔ bs.length ≠ rspBytes wd := by
  obtain ⟨h, hr⟩ | ⟨h, hw, hr⟩ | ⟨z, h, hw, hr⟩ := responseOfBytes_cases wd bs <;> simp [*]

theorem responseOfBytes_eq_neverProduced_iff {wd : Width} {bs : List Byte} :
    responseOfBytes wd bs = .error .neverProduced ↔ bs.length = rspBytes wd ∧ Sampled.ofWord wd (ofBytes bs) = none := by
  obtain ⟨h, hr⟩ | ⟨h, hw, hr⟩ | ⟨z, h, hw, hr⟩ := responseOfBytes_cases wd bs <;> simp [*]

theorem responseOfBytes_bytes_answerOf (p : Presented) :
    responseOfBytes p.width (Machine.answerOf p).bytes = .ok (Machine.answerOf p) := by
  have hword := (Machine.answerOf p).word_lt
  rw [Machine.answerOf_width] at hword
  refine responseOfBytes_eq_ok_iff.mpr ⟨by rw [Sampled.bytes_length, Machine.answerOf_width], ?_⟩
  exact Sampled.ofWord_eq_some_iff.mpr ⟨p, rfl, rfl, by rw [Sampled.ofBytes_bytes, Nat.mod_eq_of_lt hword]⟩

/-- Settles O53: the bytes are those of the word (R32), and what is read from them is what the packed word of some answer is. -/
theorem responseBytes : Obligations.ResponseBytes := by
  refine ⟨rfl, rfl, rfl, rfl, fun y => ⟨y.bytes_length, y.ofBytes_bytes, fun _ => toBytes_getElem? y.word⟩,
    fun p => ⟨Machine.answerOf_width p, responseOfBytes_bytes_answerOf p⟩, fun wd bs y h => ?_,
    fun _ _ => responseOfBytes_eq_wrongLength_iff, fun wd bs => ?_⟩
  · obtain ⟨hlen, hread⟩ := responseOfBytes_eq_ok_iff.mp h
    obtain ⟨p, rfl, rfl, hword⟩ := Sampled.ofWord_eq_some_iff.mp hread
    exact ⟨Machine.answerOf_width p, by rw [Sampled.bytes_length, Machine.answerOf_width, hlen], hword, p, rfl, rfl⟩
  · rw [responseOfBytes_eq_neverProduced_iff]
    refine and_congr_right fun _ => ?_
    simp only [Option.eq_none_iff_forall_ne_some, ne_eq, Sampled.ofWord_eq_some_iff]
    exact ⟨fun h p hp hword => h _ ⟨p, hp, rfl, hword⟩, fun h _ ⟨p, hp, hy, hword⟩ => h p hp (hy ▸ hword)⟩

end Sys2Proof

namespace Sys2Proof.Machine

/-! ## Repeated evaluation (R34) -/

theorem evaluated_evaluated (s : State) (p : Presented) : (s.evaluated p).evaluated p = s.evaluated p := by
  cases p <;> rfl

/-- Settles O39: executing is answering the request, and the same answer stands on the ports already. -/
theorem evaluationIsIdempotent : Obligations.EvaluationIsIdempotent := by
  intro i s t h
  rw [exec_eq_evaluated] at h
  cases h
  rw [exec_eq_evaluated, evaluated_evaluated]

/-! ## What the host rejects (R39, R52, R127) -/

theorem fitPort_eq_error {w v : Nat} {why : Refusal} (h : fitPort w v = .error why) : why = .valueTooWide v := by
  rw [fitPort] at h
  split at h <;> cases h
  rfl

/-- The three reasons to reject an operand. -/
theorem operandValue_eq_error {w : Nat} {rs : List Sampled} {x : Operand} {why : Refusal}
    (h : operandValue w rs x = .error why) :
    (∃ n, why = .noSuchResponse n) ∨ (∃ n, why = .faultedResponse n) ∨ ∃ v, why = .valueTooWide v := by
  cases x with
  | lit v => exact .inr (.inr ⟨v, fitPort_eq_error h⟩)
  | result n =>
    rw [operandValue] at h
    split at h
    · cases h
      exact .inl ⟨n, rfl⟩
    · split at h
      · cases h
        exact .inr (.inl ⟨n, rfl⟩)
      · exact .inr (.inr ⟨_, fitPort_eq_error h⟩)

/-- A WAU rejects an entry for one of its operands. -/
theorem resolveAt_eq_error {w : Nat} {e : Entry} {rs : List Sampled} {why : Refusal}
    (h : resolveAt w e rs = .error why) : ∃ x, operandValue w rs x = .error why := by
  rw [resolveAt] at h
  split at h <;> cases h <;> exact ⟨_, ‹_›⟩

/-- Naming the WAU adds no reason. -/
theorem map_resolveAt_eq_error {w : Nat} {e : Entry} {rs : List Sampled} {why : Refusal} {c : Request w → Presented}
    (h : (resolveAt w e rs).map c = .error why) : ∃ x, operandValue w rs x = .error why := by
  cases hr : resolveAt w e rs <;> rw [hr] at h <;> cases h
  exact resolveAt_eq_error hr

theorem resolve_eq_error {e : Entry} {rs : List Sampled} {why : Refusal} (h : resolve e rs = .error why) :
    ∃ w x, operandValue w rs x = .error why := by
  rw [resolve] at h
  split at h <;> exact ⟨_, map_resolveAt_eq_error h⟩

theorem exists_resolve_of_reject {s : State} {why : Refusal} (h : s.hostMove = .reject why) :
    ∃ e rest, s.run.script = e :: rest ∧ resolve e s.run.responses = .error why := by
  rw [State.hostMove] at h
  split at h
  next => cases h
  next e rest hs =>
    split at h <;> cases h
    exact ⟨e, rest, hs, ‹_›⟩

/-- Settles O46: of the cases of a step only the rejection of the script's head is no next state, and an operand is never
rejected for want of a meaning. -/
theorem stepNeverFaults : Obligations.StepNeverFaults := by
  refine ⟨fun s f hf => ?_, fun s why hw => ?_⟩
  · obtain ⟨-, hstep⟩ | ⟨_, _, -, hstep⟩ | ⟨_, -, hstep⟩ := step_cases s <;> rw [hstep] at hf <;> cases hf
  · obtain ⟨-, hstep⟩ | ⟨_, _, -, hstep⟩ | ⟨_, hmove, hstep⟩ := step_cases s <;> rw [hstep] at hw <;> cases hw
    obtain ⟨e, rest, hs, hr⟩ := exists_resolve_of_reject hmove
    obtain ⟨w, x, hx⟩ := resolve_eq_error hr
    refine ⟨e, rest, hs, hr, fun n hn => ?_⟩
    obtain ⟨_, rfl⟩ | ⟨_, rfl⟩ | ⟨_, rfl⟩ := operandValue_eq_error hx <;> cases hn

end Sys2Proof.Machine
end

section
/-! PROOFS. The rules of 30_encoding.md, first those of one request and of the host's run: the packed words (R43, R44) and the
operation codes (R45), the decoder's totality (R50, R51) and the worked encodings (R57); then what a step does with the operands of
a script's head (R52), and with the faults it meets (60_exceptions.md R121). -/

namespace Sys2Proof

/-! ## The packed words (R43, R44) -/

/-- Settles O6: the fields as numbers and both inverses are facts about the packed word at every W; the sizes are computed. -/
theorem requestWordFormat : Obligations.RequestWordFormat := by
  refine ⟨fun w x => ?_, fun w q => q.ofWord_word, rfl, rfl, rfl, rfl, rfl, rfl, rfl, rfl⟩
  obtain ⟨ha, hb, hm, hop⟩ := Request.ofWord_toNat x
  exact ⟨ha, hb, hm, hop, Request.word_ofWord x⟩

/-- Settles O7: the packed word is the sum of the port values, each at its place. -/
theorem responseWordFormat : Obligations.ResponseWordFormat := by
  refine ⟨fun w p => ?_, fun w r pv => ?_, fun _ => rfl, fun _ => rfl, rfl, rfl, rfl, rfl, rfl, rfl, rfl, rfl⟩
  · rw [Response.word, OutPorts.word_toNat]
    ring
  · cases pv <;> rfl

/-! ## Operation codes and the decoder (R45, R50, R51) -/

/-- Settles O2: each of the eight codes selects its arm of the decoder, whatever the operands. -/
theorem opCodeSelectsOperation : Obligations.OpCodeSelectsOperation :=
  ⟨fun _ _ _ => ⟨rfl, rfl, rfl, rfl, rfl, rfl, rfl, rfl⟩, fun _ _ _ => ⟨rfl, rfl, rfl, rfl, rfl, rfl, rfl, rfl⟩,
    fun _ _ _ => ⟨rfl, rfl, rfl, rfl, rfl, rfl, rfl, rfl⟩, fun _ _ _ => ⟨rfl, rfl, rfl, rfl, rfl, rfl, rfl, rfl⟩⟩

/-- Bytes of any length but a request's are rejected for their length. -/
theorem decodeBytes_of_length_ne {wd : Width} {bs : List Byte} (h : bs.length ≠ reqBytes wd) :
    decodeBytes wd bs = .error .wrongLength := by
  simp only [decodeBytes, requestOfBytes, if_neg h]

/-- Settles O5: the length is all that the decoder looks at before it reads the fields. -/
theorem decoderIsTotal : Obligations.DecoderIsTotal :=
  ⟨fun _ _ h => ⟨_, decodeBytes_eq_ok_iff.mpr ⟨h, rfl⟩⟩, fun _ _ => decodeBytes_of_length_ne, rfl, rfl, rfl, rfl⟩

/-- Settles O1: each row of the table, computed. -/
theorem workedEncodings : Obligations.WorkedEncodings :=
  ⟨⟨by decide, by decide, _, rfl, by decide⟩, ⟨by decide, by decide, _, rfl, by decide⟩,
    ⟨by decide, by decide, _, rfl, by decide⟩, ⟨by decide, by decide, _, rfl, by decide⟩,
    ⟨by decide, by decide, _, rfl, by decide⟩, ⟨by decide, by decide, _, rfl, by decide⟩⟩

/-! ## Table words (R43, log entry 5) -/

/-- What is decoded from a table word is the request read from it. -/
theorem exists_request_of_decodeTableWord {nbits x : Nat} {i : Instr} (h : decodeTableWord nbits x = some i) :
    ∃ p, requestOfTableWord nbits x = some p ∧ decode p = i := by
  rw [decodeTableWord] at h
  split at h <;> cases h
  exact ⟨_, ‹_›, rfl⟩

/-- Every word of a row whose length is that of some width decodes. -/
theorem exists_decodeTableWord {nbits : Nat} {wd : Width} (h : widthOfTableBits nbits = some wd) (x : Nat) :
    ∃ i, decodeTableWord nbits x = some i := by
  simp [decodeTableWord, requestOfTableWord, h, requestOfBytes, toBytes_length]

/-! ## Faults and results (60_exceptions.md R121) -/

/-- A response that is a fault has no result. -/
theorem Sampled.result?_of_cause? {y : Sampled} {c : Cause} (h : y.cause? = some c) : y.result? = none := by
  cases y with
  | r8 p | r16 p | r32 p | r64 p =>
    cases p with
    | ok r pv => cases h
    | fault c => rfl

end Sys2Proof

namespace Sys2Proof.Machine

/-! ## The operands of a script entry (R52) -/

theorem fitPort_of_le {w v : Nat} (h : 2 ^ w ≤ v) : fitPort w v = .error (.valueTooWide v) := if_neg h.not_gt

section
variable {w : Nat} {rs : List Sampled} {n : Nat}

/-- `$(n+1)` is the result of response n+1, if it fits. -/
theorem operandValue_result {v : Nat} {y : Sampled} (hy : rs[n]? = some y) (hv : y.result? = some v) :
    operandValue w rs (.result (n + 1)) = fitPort w v := by
  simp only [operandValue, nthResponse, hy, hv]

theorem operandValue_result_of_fault {y : Sampled} (hy : rs[n]? = some y) (hv : y.result? = none) :
    operandValue w rs (.result (n + 1)) = .error (.faultedResponse (n + 1)) := by
  simp only [operandValue, nthResponse, hy, hv]

theorem operandValue_result_of_length_le (h : rs.length ≤ n) :
    operandValue w rs (.result (n + 1)) = .error (.noSuchResponse (n + 1)) := by
  simp only [operandValue, nthResponse, List.getElem?_eq_none h]

end

section
variable {w : Nat} {e : Entry} {rs : List Sampled} {a b m : BitVec w} {why : Refusal}

/-- An entry whose operands are all values is the request of these values. -/
theorem resolveAt_of_ok (ha : operandValue w rs e.a = .ok a) (hb : operandValue w rs e.b = .ok b)
    (hm : operandValue w rs e.m = .ok m) : resolveAt w e rs = .ok ⟨e.op, a, b, m⟩ := by
  simp only [resolveAt, ha, hb, hm]

theorem resolveAt_of_error_a (ha : operandValue w rs e.a = .error why) : resolveAt w e rs = .error why := by
  simp only [resolveAt, ha]

theorem resolveAt_of_error_b (ha : operandValue w rs e.a = .ok a) (hb : operandValue w rs e.b = .error why) :
    resolveAt w e rs = .error why := by
  simp only [resolveAt, ha, hb]

theorem resolveAt_of_error_m (ha : operandValue w rs e.a = .ok a) (hb : operandValue w rs e.b = .ok b)
    (hm : operandValue w rs e.m = .error why) : resolveAt w e rs = .error why := by
  simp only [resolveAt, ha, hb, hm]

end

/-! ## The step of a script's head (R52, 70_reset_and_hazards.md R133) -/

/-- The step of a head that its WAU resolves, where `c` names the WAU. -/
theorem step_of_resolveAt_ok {s : State} {e : Entry} {rest : List Entry} {w : Nat} {q : Request w}
    (c : Request w → Presented) (hs : s.run.script = e :: rest)
    (hc : resolve e s.run.responses = (resolveAt w e s.run.responses).map c)
    (hq : resolveAt w e s.run.responses = .ok q) :
    step s = .next (((s.withScript rest).evaluated (c q)).record (answerOf (c q))) :=
  step_of_present (hostMove_of_resolve_ok hs (hc.trans (congrArg (Except.map c) hq)))

/-- A head that its WAU rejects is refused by the step that comes to it. -/
theorem step_of_resolveAt_error {s : State} {e : Entry} {rest : List Entry} {why : Refusal}
    (hs : s.run.script = e :: rest) (h : resolveAt e.width.bits e s.run.responses = .error why) :
    step s = .refused why := by
  refine step_of_reject (hostMove_of_resolve_error hs ?_)
  obtain ⟨wd, op, x, y, z⟩ := e
  cases wd <;> exact congrArg (Except.map _) h

/-- Settles O50: the cases of an operand, and the step that refuses a head for its first rejected operand. -/
theorem faultedResultIsNeverUsed : Obligations.FaultedResultIsNeverUsed :=
  ⟨fun _ _ _ _ _ hy hc => operandValue_result_of_fault hy (Sampled.result?_of_cause? hc),
    fun _ _ _ => operandValue_result_of_length_le, fun _ _ => rfl, fun _ _ _ => fitPort_of_le,
    fun _ _ _ _ _ hy hv hle => (operandValue_result hy hv).trans (fitPort_of_le hle),
    fun _ _ _ _ hs ha => step_of_resolveAt_error hs (resolveAt_of_error_a ha),
    fun _ _ _ _ _ hs ha hb => step_of_resolveAt_error hs (resolveAt_of_error_b ha hb),
    fun _ _ _ _ _ _ hs ha hb hm => step_of_resolveAt_error hs (resolveAt_of_error_m ha hb hm)⟩

/-- Settles O49: the values of the operands, and the step of a head whose WAU resolves it, written out field by field. -/
theorem resultSubstitution : Obligations.ResultSubstitution := by
  refine ⟨fun _ _ _ => fitPort_of_lt, fun _ _ _ _ _ hy hv hlt => (operandValue_result hy hv).trans (fitPort_of_lt hlt),
    fun s op x y z a b m rest hs ha hb hm => ?_, fun s op x y z a b m rest hs ha hb hm => ?_,
    fun s op x y z a b m rest hs ha hb hm => ?_, fun s op x y z a b m rest hs ha hb hm => ?_⟩
  · exact step_of_resolveAt_ok .r8 hs rfl (resolveAt_of_ok ha hb hm)
  · exact step_of_resolveAt_ok .r16 hs rfl (resolveAt_of_ok ha hb hm)
  · exact step_of_resolveAt_ok .r32 hs rfl (resolveAt_of_ok ha hb hm)
  · exact step_of_resolveAt_ok .r64 hs rfl (resolveAt_of_ok ha hb hm)

/-- Settles O51: the loaded request is at the head of the script as literals, which resolve to it. -/
theorem loadedWordRunsNext : Obligations.LoadedWordRunsNext := by
  refine ⟨fun s nbits x i h => ?_, fun x => ⟨exists_decodeTableWord (wd := .w8) rfl x,
    exists_decodeTableWord (wd := .w16) rfl x, exists_decodeTableWord (wd := .w32) rfl x,
    exists_decodeTableWord (wd := .w64) rfl x⟩⟩
  obtain ⟨p, hp, rfl⟩ := exists_request_of_decodeTableWord h
  have hload : s.withFetchWord nbits x = s.load p := by simp only [State.withFetchWord, hp]
  rw [hload, request_decode]
  exact stepRunsTheDecodedRequest (s.load p) p.entry s.run.script p rfl (resolve_entry p _)

/-! ## The record of faults (60_exceptions.md R121) -/

theorem faultRecord_of_responses {s t : State} {l : List Sampled} (h : t.run.responses = s.run.responses ++ l) :
    t.faultRecord = s.faultRecord ++ l.filterMap Sampled.cause? := by
  rw [State.faultRecord, h, List.filterMap_append, State.faultRecord]

theorem faultMark_iff (s : State) : s.faultMark = true ↔ s.faultRecord ≠ [] := by
  simp [State.faultMark]

/-- A step that answers appends at most one response. -/
theorem exists_responses_of_step {s t : State} (h : step s = .next t) :
    ∃ l : List Sampled, l.length ≤ 1 ∧ t.run.responses = s.run.responses ++ l := by
  obtain ⟨-, hstep⟩ | ⟨p, rest, -, hstep⟩ | ⟨why, -, hstep⟩ := step_cases s <;> rw [hstep] at h <;> cases h
  · exact ⟨[], Nat.zero_le 1, by simp⟩
  · exact ⟨[answerOf p], le_rfl, by simp⟩

/-- Settles O48: the record is read off the responses, to which a step only appends. -/
theorem faultRecordIsKept : Obligations.FaultRecordIsKept := by
  refine ⟨fun s t h => ?_, fun s e p rest c hs hr hc => ?_⟩
  · obtain ⟨l, hlen, hl⟩ := exists_responses_of_step h
    have hrecord := faultRecord_of_responses hl
    refine ⟨l, hlen, hl, hrecord, ?_⟩
    rw [faultMark_iff, faultMark_iff, hrecord]
    exact fun h => List.append_ne_nil_of_left_ne_nil h _
  · obtain ⟨t, hstep, -, hl⟩ := exists_step_of_resolve_ok hs hr
    have hrecord : t.faultRecord = s.faultRecord ++ [c] := by simp [faultRecord_of_responses hl, hc]
    exact ⟨t, hstep, hrecord, (faultMark_iff t).mpr (by simp [hrecord])⟩

end Sys2Proof.Machine
end

section
/-! PROOFS. The rules of 30_encoding.md for the assembler (R52, R53): what it makes of a line and of a literal that does not fit,
and that it undoes the disassembler. -/

namespace Sys2Proof

/-! ## A line and its entry (R52) -/

theorem tooWide_eq_none_iff {w : Nat} {l : List Operand} : tooWide w l = none ↔ ∀ v, .lit v ∈ l → v < 2 ^ w := by
  refine ⟨fun h => ?_, tooWide_of_fits⟩
  induction l with
  | nil => nofun
  | cons x xs ih =>
    cases x with
    | lit u =>
      rw [tooWide] at h
      split at h
      · simpa [*] using ih h
      · cases h
    | result n => simpa using ih h

theorem eq_of_checkedEntry_eq_ok {wd : Width} {op : BitVec 3} {a b m : Operand} {e : Entry}
    (h : checkedEntry wd op a b m = .ok e) : e = ⟨wd, op, a, b, m⟩ := by
  rw [checkedEntry] at h
  split at h <;> cases h
  rfl

/-- Of the literals that do not fit, one is reported. -/
theorem checkedEntry_of_misfit {wd : Width} {a b m : Operand} {v : Nat} (op : BitVec 3) (hmem : .lit v ∈ [a, b, m])
    (hv : 2 ^ wd.bits ≤ v) :
    ∃ u, checkedEntry wd op a b m = .error (.literalTooWide u) ∧ .lit u ∈ [a, b, m] ∧ 2 ^ wd.bits ≤ u := by
  cases h : tooWide wd.bits [a, b, m] with
  | none => exact absurd (tooWide_eq_none_iff.mp h v hmem) hv.not_gt
  | some u => exact ⟨u, by simp only [checkedEntry, h], tooWide_some h⟩

/-- A line whose code fits is the entry of its operands, with 0 in the fields that are not written (R53). -/
theorem exists_assemble_eq_checkedEntry {l : AsmLine} (h : l.code < 8) :
    ∃ a b m, assemble l = checkedEntry l.width (BitVec.ofNat 3 l.code) a b m ∧ (∀ x ∈ l.operands, x ∈ [a, b, m]) ∧
      ∀ x ∈ [a, b, m], x ∈ l.operands ∨ x = .lit 0 := by
  cases l with
  | rotaryAdd wd a b | rotarySub wd a b =>
    exact ⟨a, b, .lit 0, rfl, by simp [AsmLine.operands], by simp [AsmLine.operands]⟩
  | seriesMod wd a limit => exact ⟨a, .lit 0, limit, rfl, by simp [AsmLine.operands], by simp [AsmLine.operands]⟩
  | cycleAdd wd a b m | cycleSub wd a b m | seriesAdd wd a b m | seriesSub wd a b m =>
    exact ⟨a, b, m, rfl, fun _ => id, fun _ => .inl⟩
  | raw wd op a b m => exact ⟨a, b, m, if_pos h, fun _ => id, fun _ => .inl⟩

theorem assemble_of_code_ge {l : AsmLine} (h : 8 ≤ l.code) : assemble l = .error (.literalTooWide l.code) := by
  cases l with
  | raw wd op a b m => exact if_neg h.not_gt
  | _ => exact absurd h (by simp [AsmLine.code])

theorem assemble_of_misfit {l : AsmLine} {v : Nat} (hmem : .lit v ∈ l.operands) (hv : 2 ^ l.width.bits ≤ v)
    (hcode : l.code < 8) :
    ∃ u, assemble l = .error (.literalTooWide u) ∧ .lit u ∈ l.operands ∧ 2 ^ l.width.bits ≤ u := by
  obtain ⟨a, b, m, hl, hsub, hsup⟩ := exists_assemble_eq_checkedEntry hcode
  obtain ⟨u, hu, humem, hule⟩ := checkedEntry_of_misfit (BitVec.ofNat 3 l.code) (hsub _ hmem) hv
  refine ⟨u, hl.trans hu, (hsup _ humem).resolve_right fun h0 => ?_, hule⟩
  cases h0
  exact absurd hule (Nat.two_pow_pos _).not_ge

theorem assemble_of_fits {l : AsmLine} (hfit : ∀ v, .lit v ∈ l.operands → v < 2 ^ l.width.bits) (hcode : l.code < 8) :
    ∃ e : Entry, assemble l = .ok e ∧ e.width = l.width ∧ e.op.toNat = l.code := by
  obtain ⟨a, b, m, hl, -, hsup⟩ := exists_assemble_eq_checkedEntry hcode
  have hfit' : ∀ v, .lit v ∈ [a, b, m] → v < 2 ^ l.width.bits := fun v hv => by
    obtain h | h := hsup _ hv
    · exact hfit v h
    · cases h
      exact Nat.two_pow_pos _
  exact ⟨_, hl.trans (checkedEntry_of_fits _ hfit'), rfl, BitVec.toNat_ofNat _ _ |>.trans (Nat.mod_eq_of_lt hcode)⟩

/-! ## Printing a request and assembling it again (R53) -/

/-- The literals of a request fit the ports of the WAU it is for. -/
theorem checkedEntry_literals {wd : Width} (q : Request wd.bits) :
    checkedEntry wd q.op (.lit q.a.toNat) (.lit q.b.toNat) (.lit q.m.toNat) = .ok (q.entry wd) := by
  refine checkedEntry_of_fits q.op fun v hv => ?_
  simp only [List.mem_cons, Operand.lit.injEq, List.not_mem_nil, or_false] at hv
  obtain rfl | rfl | rfl := hv <;> exact BitVec.isLt _

theorem assemble_raw {wd : Width} (q : Request wd.bits) :
    assemble (.raw wd q.op.toNat (.lit q.a.toNat) (.lit q.b.toNat) (.lit q.m.toNat)) = .ok (q.entry wd) := by
  rw [assemble, if_pos q.op.isLt, BitVec.ofNat_toNat, BitVec.setWidth_eq, checkedEntry_literals]

/-- The line a request is printed as assembles to it: what is not printed is 0. -/
theorem assemble_line {wd : Width} (q : Request wd.bits) : assemble (q.line wd) = .ok (q.entry wd) := by
  have hop := Machine.code_ofCode q.op
  have hentry := checkedEntry_literals q
  rw [Request.line]
  cases ho : Op.ofCode q.op <;> rw [ho] at hop <;> simp only
  case rotaryAdd | rotarySub =>
    split
    next hm => rw [assemble, hop, ← hentry, hm]; rfl
    next => exact assemble_raw q
  case seriesMod =>
    split
    next hb => rw [assemble, hop, ← hentry, hb]; rfl
    next => exact assemble_raw q
  case cycleAdd | cycleSub | seriesAdd | seriesSub => rw [assemble, hop, hentry]
  case reserved => exact assemble_raw q

theorem assemble_disassemble (i : Instr) : assemble (disassemble i) = .ok i.request.entry := by
  rw [disassemble]
  cases i.request with
  | r8 q => exact assemble_line (wd := .w8) q
  | r16 q => exact assemble_line (wd := .w16) q
  | r32 q => exact assemble_line (wd := .w32) q
  | r64 q => exact assemble_line (wd := .w64) q

/-- A request with a don't-care field is printed with its mnemonic exactly when that field is 0. -/
theorem isRaw_ite_iff {w : Nat} {v : BitVec w} {l l' : AsmLine} (h : l.isRaw = false) (h' : l'.isRaw = true) :
    (if v = 0 then l else l').isRaw = false ↔ (v == 0) = true := by
  rw [beq_iff_eq]
  split
  next hv => exact iff_of_true h hv
  next hv => exact iff_of_false (by simp [h']) hv

theorem isRaw_disassemble_iff (i : Instr) : (disassemble i).isRaw = false ↔ i.canonical = true := by
  cases i with
  | rotaryAdd8 a b m | rotaryAdd16 a b m | rotaryAdd32 a b m | rotaryAdd64 a b m
  | rotarySub8 a b m | rotarySub16 a b m | rotarySub32 a b m | rotarySub64 a b m
  | seriesMod8 a b m | seriesMod16 a b m | seriesMod32 a b m | seriesMod64 a b m => exact isRaw_ite_iff rfl rfl
  | cycleAdd8 | cycleAdd16 | cycleAdd32 | cycleAdd64 | cycleSub8 | cycleSub16 | cycleSub32 | cycleSub64
  | seriesAdd8 | seriesAdd16 | seriesAdd32 | seriesAdd64 | seriesSub8 | seriesSub16 | seriesSub32 | seriesSub64 =>
    exact iff_of_true rfl rfl
  | reserved8 | reserved16 | reserved32 | reserved64 => exact iff_of_false nofun nofun

/-- Settles O52: an instruction's line gives its request back, and every line is the checked entry of its operands. -/
theorem disassemblyReassembles : Obligations.DisassemblyReassembles := by
  refine ⟨fun i => ⟨assemble_disassemble i, isRaw_disassemble_iff i⟩, fun wd a b e => ⟨fun h => ?_, fun h => ?_, fun h => ?_⟩,
    fun _ _ => assemble_of_misfit, fun _ => assemble_of_code_ge, fun _ => assemble_of_fits⟩
  all_goals rw [eq_of_checkedEntry_eq_ok h]

end Sys2Proof
end

section
/-! PROOFS. The text of a line (30_encoding.md R52, R53): cutting, trimming and reading digits undo the spelling of a width, of an
operand and of a list of operands, and so a line as it is written is read as that line. -/

namespace Sys2Proof

/-! ## Cutting and trimming -/

theorem exists_cutAt_eq_cons (c : Char) (l : List Char) : ∃ p ps, cutAt c l = p :: ps := by
  cases l with
  | nil => exact ⟨[], [], rfl⟩
  | cons x l =>
    rw [cutAt]
    split
    · exact ⟨_, _, rfl⟩
    · split <;> exact ⟨_, _, rfl⟩

/-- The first separator ends the first piece. -/
theorem cutAt_append {c : Char} {xs : List Char} (h : ∀ x ∈ xs, x ≠ c) (ys : List Char) :
    cutAt c (xs ++ c :: ys) = xs :: cutAt c ys := by
  induction xs with
  | nil =>
    obtain ⟨p, ps, hys⟩ := exists_cutAt_eq_cons c ys
    rw [List.nil_append, cutAt, hys]
    exact if_pos rfl
  | cons x xs ih =>
    rw [List.cons_append, cutAt, ih fun y hy => h y (List.mem_cons_of_mem _ hy)]
    exact if_neg (h x List.mem_cons_self)

/-- Cutting undoes joining. -/
theorem cutAt_intercalate {c : Char} : ∀ {ps : List (List Char)}, ps ≠ [] → (∀ p ∈ ps, ∀ x ∈ p, x ≠ c) →
    cutAt c ([c].intercalate ps) = ps
  | [], hne, _ => absurd rfl hne
  | [p], _, h => by rw [List.intercalate_singleton, cutAt_of_not_mem (h p List.mem_cons_self)]
  | p :: q :: ps, _, h => by
    rw [List.intercalate_cons_cons, List.append_assoc, List.singleton_append, cutAt_append (h p List.mem_cons_self),
      cutAt_intercalate (List.cons_ne_nil q ps) fun r hr => h r (List.mem_cons_of_mem _ hr)]

theorem dropWhile_blank_eq_self {l : List Char} (h : l.head? ≠ some ' ') : l.dropWhile (· == ' ') = l := by
  cases l with
  | nil => rfl
  | cons x l => exact List.dropWhile_cons_of_neg (by simpa using h)

/-- A text that neither begins nor ends with a blank. -/
theorem trimBlanks_eq_self {l : List Char} (hhead : l.head? ≠ some ' ') (hlast : l.getLast? ≠ some ' ') :
    trimBlanks l = l := by
  rw [trimBlanks, dropWhile_blank_eq_self hhead, dropWhile_blank_eq_self (List.head?_reverse ▸ hlast), List.reverse_reverse]

theorem trimBlanks_blank_cons (l : List Char) : trimBlanks (' ' :: l) = trimBlanks l := rfl

/-! ## Digits -/

theorem digitValue_of_isDigit {c : Char} (h : c.isDigit) : digitValue 10 c = some (c.toNat - '0'.toNat) := by
  have hc : 48 ≤ c.toNat ∧ c.toNat ≤ 57 := Char.isDigit_iff_toNat.mp h
  rw [digitValue]
  simp only [if_pos hc, if_pos (show c.toNat - 48 < 10 by omega)]
  rfl

theorem readDigits_of_isDigit {ds : List Char} (h : ∀ c ∈ ds, c.isDigit) (acc : Nat) :
    readDigits 10 acc ds = some (Nat.ofDigitChars 10 ds acc) := by
  induction ds generalizing acc with
  | nil => rfl
  | cons c ds ih =>
    simp only [readDigits, digitValue_of_isDigit (h c List.mem_cons_self)]
    rw [ih fun d hd => h d (List.mem_cons_of_mem _ hd), Nat.ofDigitChars_cons, Nat.mul_comm]

theorem isDigit_of_mem_toDigits {n : Nat} : ∀ c ∈ Nat.toDigits 10 n, c.isDigit := fun _ =>
  Nat.isDigit_of_mem_toDigits (by decide) le_rfl

/-- A printed number is read as that number. -/
theorem readNumber_toDigits (n : Nat) : readNumber 10 (Nat.toDigits 10 n) = some n := by
  have hread := readDigits_of_isDigit (isDigit_of_mem_toDigits (n := n)) 0
  rw [Nat.ofDigitChars_ten_toDigits] at hread
  obtain ⟨c, ds, hds⟩ := List.exists_cons_of_ne_nil (Nat.toDigits_ne_nil (n := n) (b := 10))
  rw [hds] at hread ⊢
  exact hread

/-! ## Operands -/

/-- Digits alone are a decimal literal: a literal in another base begins with a letter after its 0. -/
theorem readLiteral_of_isDigit {ds : List Char} (h : ∀ c ∈ ds, c.isDigit) : readLiteral ds = readNumber 10 ds := by
  unfold readLiteral
  split
  · exact absurd (h 'x' (by simp)) (by decide)
  · exact absurd (h 'b' (by simp)) (by decide)
  · rfl

theorem readOperand_of_isDigit {ds : List Char} (h : ∀ c ∈ ds, c.isDigit) :
    readOperand ds = (readNumber 10 ds).map .lit := by
  unfold readOperand
  split
  · exact absurd (h '$' (by simp)) (by decide)
  · rw [readLiteral_of_isDigit h]

theorem spell_lit_toList (v : Nat) : (Operand.lit v).spell.toList = Nat.toDigits 10 v := Nat.toList_repr

theorem spell_result_toList (n : Nat) : (Operand.result n).spell.toList = '$' :: Nat.toDigits 10 n := by
  rw [Operand.spell, String.toList_append, Nat.toList_repr]
  rfl

theorem readOperand_spell (x : Operand) : readOperand x.spell.toList = some x := by
  cases x with
  | lit v =>
    rw [spell_lit_toList, readOperand_of_isDigit isDigit_of_mem_toDigits, readNumber_toDigits]
    rfl
  | result n =>
    rw [spell_result_toList, readOperand, readNumber_toDigits]
    rfl

/-- An operand is spelled with digits and `$`. -/
theorem isDigit_or_eq_of_mem_spell {x : Operand} {c : Char} (h : c ∈ x.spell.toList) : c.isDigit ∨ c = '$' := by
  cases x with
  | lit v => exact .inl (isDigit_of_mem_toDigits c (spell_lit_toList v ▸ h))
  | result n =>
    rw [spell_result_toList, List.mem_cons] at h
    exact h.symm.imp_left (isDigit_of_mem_toDigits c)

theorem ne_blank_of_mem_spell {x : Operand} {c : Char} (h : c ∈ x.spell.toList) : c ≠ ' ' := by
  rintro rfl
  exact absurd (isDigit_or_eq_of_mem_spell h) (by decide)

theorem ne_comma_of_mem_spell {x : Operand} {c : Char} (h : c ∈ x.spell.toList) : c ≠ ',' := by
  rintro rfl
  exact absurd (isDigit_or_eq_of_mem_spell h) (by decide)

theorem spell_toList_ne_nil (x : Operand) : x.spell.toList ≠ [] := by
  cases x with
  | lit v => exact spell_lit_toList v ▸ Nat.toDigits_ne_nil
  | result n => exact spell_result_toList n ▸ List.cons_ne_nil _ _

theorem trimBlanks_spell (x : Operand) : trimBlanks x.spell.toList = x.spell.toList :=
  trimBlanks_eq_self (fun h => ne_blank_of_mem_spell (List.mem_of_mem_head? h) rfl)
    fun h => ne_blank_of_mem_spell (List.mem_of_getLast? h) rfl

/-- An operand as it stands in a line, after a blank. -/
def spelledOperand (x : Operand) : List Char := ' ' :: x.spell.toList

theorem readOperands_spelled (xs : List Operand) : readOperands (xs.map spelledOperand) = some xs := by
  induction xs with
  | nil => rfl
  | cons x xs ih =>
    simp only [List.map_cons, readOperands, ih, spelledOperand, trimBlanks_blank_cons, trimBlanks_spell, readOperand_spell]

/-- The blank before the operands and the blanks after the commas are one before each operand. -/
theorem blank_cons_intercalate (x : Operand) (xs : List Operand) :
    ' ' :: [',', ' '].intercalate ((x :: xs).map (·.spell.toList)) = [','].intercalate ((x :: xs).map spelledOperand) := by
  induction xs generalizing x with
  | nil => simp [spelledOperand]
  | cons y ys ih =>
    rw [List.map_cons, List.map_cons, List.intercalate_cons_cons, List.map_cons, List.map_cons, List.intercalate_cons_cons,
      ← List.map_cons (f := spelledOperand), ← ih y, List.map_cons]
    simp [spelledOperand]

/-- The operands of a line are cut at the commas and read one by one. -/
theorem readOperands_cutAt_spelled (x : Operand) (xs : List Operand) :
    readOperands (cutAt ',' ([','].intercalate ((x :: xs).map spelledOperand))) = some (x :: xs) := by
  rw [cutAt_intercalate (by simp), readOperands_spelled]
  intro p hp c hc
  obtain ⟨y, -, rfl⟩ := List.mem_map.mp hp
  obtain rfl | hc := List.mem_cons.mp hc
  · decide
  · exact ne_comma_of_mem_spell hc

/-- A line does not end with a blank, but with the last operand. -/
theorem getLast?_spelledOperands (x : Operand) (xs : List Operand) :
    ∃ c, ([','].intercalate ((x :: xs).map spelledOperand)).getLast? = some c ∧ c ≠ ' ' := by
  induction xs generalizing x with
  | nil =>
    refine ⟨x.spell.toList.getLast (spell_toList_ne_nil x), ?_, ne_blank_of_mem_spell (List.getLast_mem _)⟩
    simp [spelledOperand, List.getLast?_cons, List.getLast?_eq_getLast_of_ne_nil (spell_toList_ne_nil x)]
  | cons y ys ih =>
    obtain ⟨c, hc, hne⟩ := ih y
    simp only [List.map_cons] at hc
    exact ⟨c, by simp only [List.map_cons, List.intercalate_cons_cons, List.getLast?_append, hc, Option.some_or], hne⟩

/-! ## Lines -/

/-- The suffix is a dot and the digits of the width it names. -/
theorem exists_suffix_toList (wd : Width) :
    ∃ ds, wd.suffix.toList = '.' :: ds ∧ readWidth ds = some wd ∧ ∀ c ∈ ds, c ≠ '.' ∧ c ≠ ' ' := by
  cases wd with
  | w8 => exact ⟨['8'], rfl, rfl, by simp⟩
  | w16 => exact ⟨['1', '6'], rfl, rfl, by simp⟩
  | w32 => exact ⟨['3', '2'], rfl, rfl, by simp⟩
  | w64 => exact ⟨['6', '4'], rfl, rfl, by simp⟩

/-- What stands before the first blank is cut at the dot, and the rest at the commas. -/
theorem readLine_of_parts {text : String} {name ds args : List Char} {wd : Width} {xs : List Operand}
    (htext : text.toList = (name ++ '.' :: ds) ++ ' ' :: args) (hname : ∀ c ∈ name, c ≠ '.' ∧ c ≠ ' ')
    (hds : ∀ c ∈ ds, c ≠ '.' ∧ c ≠ ' ') (hlast : (' ' :: args).getLast? ≠ some ' ') (hwd : readWidth ds = some wd)
    (hargs : readOperands (cutAt ',' (' ' :: args)) = some xs) : readLine text = lineOf name wd xs := by
  have hfront : ∀ c ∈ name ++ '.' :: ds, (c != ' ') = true := by
    simpa [or_imp, forall_and] using ⟨fun c hc => (hname c hc).2, fun c hc => (hds c hc).2⟩
  have hhead : (name ++ '.' :: ds ++ ' ' :: args).head? ≠ some ' ' := by
    rw [List.head?_append_of_ne_nil _ (by simp)]
    exact fun h => absurd (hfront _ (List.mem_of_mem_head? h)) (by simp)
  have htrim := trimBlanks_eq_self hhead (by rwa [List.getLast?_append_of_ne_nil _ (List.cons_ne_nil _ _)])
  have hcut : cutAt '.' (name ++ '.' :: ds) = [name, ds] := by
    rw [cutAt_append fun c hc => (hname c hc).1, cutAt_of_not_mem fun c hc => (hds c hc).1]
  have htake : (name ++ '.' :: ds ++ ' ' :: args).takeWhile (· != ' ') = name ++ '.' :: ds := by
    rw [List.takeWhile_append_of_pos hfront]
    simp
  have hdrop : (name ++ '.' :: ds ++ ' ' :: args).dropWhile (· != ' ') = ' ' :: args := by
    rw [List.dropWhile_append_of_pos hfront]
    simp
  simp only [readLine, htext, htrim, htake, hdrop, hcut, hargs, hwd]

/-- A line spelled from its parts is read as the line of these parts. -/
theorem readLine_spellLine {name : String} (hname : ∀ c ∈ name.toList, c ≠ '.' ∧ c ≠ ' ') (wd : Width) (x : Operand)
    (xs : List Operand) :
    readLine (spellLine name wd ((x :: xs).map Operand.spell)) = lineOf name.toList wd (x :: xs) := by
  obtain ⟨ds, hsuffix, hwd, hds⟩ := exists_suffix_toList wd
  obtain ⟨c, hc, hne⟩ := getLast?_spelledOperands x xs
  have hargs := readOperands_cutAt_spelled x xs
  rw [← blank_cons_intercalate] at hc hargs
  refine readLine_of_parts ?_ hname hds (fun h => hne (Option.some.inj (hc.symm.trans h))) hwd hargs
  simp [spellLine, hsuffix, String.toList_intercalate, Function.comp_def]

/-- Reading undoes spelling, mnemonic by mnemonic. -/
theorem readLine_spell (l : AsmLine) : readLine l.spell = some l := by
  cases l with
  | rotaryAdd wd a b => exact readLine_spellLine (name := "rotary_add") (by simp) wd a [b]
  | rotarySub wd a b => exact readLine_spellLine (name := "rotary_sub") (by simp) wd a [b]
  | cycleAdd wd a b base => exact readLine_spellLine (name := "cycle_add") (by simp) wd a [b, base]
  | cycleSub wd a b base => exact readLine_spellLine (name := "cycle_sub") (by simp) wd a [b, base]
  | seriesAdd wd a b limit => exact readLine_spellLine (name := "series_add") (by simp) wd a [b, limit]
  | seriesSub wd a b limit => exact readLine_spellLine (name := "series_sub") (by simp) wd a [b, limit]
  | seriesMod wd a limit => exact readLine_spellLine (name := "series_mod") (by simp) wd a [limit]
  | raw wd op a b m => exact readLine_spellLine (name := "raw") (by simp) wd (.lit op) [a, b, m]

/-- Settles O54: the line printed for an instruction is read back, and assembles to the instruction's request. -/
theorem printedTextReadsBack : Obligations.PrintedTextReadsBack := by
  refine ⟨readLine_spell, fun i => ?_⟩
  simp only [assembleText, readLine_spell, assemble_disassemble]

end Sys2Proof
end

section
/-! PROOFS. The rules of 40_datapath.md: the modular adder and subtractor (R66, R67) and the series fix-up (R68); then the series
operations as cycle operations with the residue 0 renamed (43_series.md R96). -/

namespace Sys2Proof.Machine

/-! ## The modular adder and subtractor (R66, R67) -/

/-- Settles O10: the values that the adder forms, each by its own lemma; an operand is below 2^W, so reducing it modulo 2^W
changes nothing. -/
theorem modAddIsModularAddition : Obligations.ModAddIsModularAddition := by
  intro w n x y M hn hpos hM
  have hym := reduce_promote_toNat hn y M
  refine ⟨_, _, rfl, hym, hym ▸ Nat.le_sub_one_of_lt (Nat.mod_lt _ hpos), rfl, ?_, accAdd_reduce_le hn x y hpos hM, rfl,
    modAdd_toNat hn x y hpos hM, Nat.le_sub_one_of_lt (modAdd_lt hn x y hpos hM), fun hnative => ?_⟩
  · rw [accAdd_reduce_toNat hn x y hpos hM, hym]
  · rw [hym, hnative, Nat.mod_eq_of_lt y.isLt]

/-- Settles O11: the branches of the subtractor, told apart by the reduced second operand; either gives the residue of the
difference. -/
theorem modSubIsModularSubtraction : Obligations.ModSubIsModularSubtraction := by
  intro w n x y M hn hpos hM
  have hym := reduce_promote_toNat hn y M
  have hlt := Nat.mod_lt y.toNat hpos
  refine ⟨_, rfl, hym, hym ▸ Nat.le_sub_one_of_lt hlt, fun h => ?_, fun h => ?_, modSub_toNat hn x y hpos⟩
  all_goals rw [hym] at h ⊢
  · exact ⟨modSub_of_le hn h, accSub_reduce_toNat hn h⟩
  · have hr : (modSub n x y M).toNat = M.toNat - (y.toNat % M.toNat - x.toNat) := by
      rw [modSub_of_lt hn h, accSub_modulus_toNat hn hpos h]
    exact ⟨modSub_of_lt hn h, hr, by omega, by omega⟩

/-! ## The series fix-up (R68) -/

/-- The fix-up of a residue of the limit lies in [1, limit]. -/
theorem seriesFix_mem {n : Nat} {q L : BitVec n} (h : q.toNat < L.toNat) :
    1 ≤ (seriesFix q L).toNat ∧ (seriesFix q L).toNat ≤ L.toNat := by
  refine ⟨?_, seriesFix_le h.le⟩
  rw [seriesFix_toNat]
  split <;> omega

/-- The residue of the integer before: one less, or from 0 back to the largest. -/
theorem sub_one_emod_add_one {L : ℤ} (hL : 0 < L) (x : ℤ) : (x - 1) % L + 1 = if x % L = 0 then L else x % L := by
  have hnonneg := Int.emod_nonneg x hL.ne'
  have hlt := Int.emod_lt_of_pos x hL
  rw [← Int.emod_sub_emod]
  split
  next h => rw [h, ← Int.add_emod_right, Int.emod_eq_of_lt] <;> omega
  next h => rw [Int.emod_eq_of_lt] <;> omega

/-- The fix-up of an integer's residue is the one-based shift of that integer. -/
theorem seriesFix_toNat_of_emod {n : Nat} {x : ℤ} {q L : BitVec n} (hL : L.toNat ≠ 0) (hq : (q.toNat : ℤ) = x % L.toNat) :
    ((seriesFix q L).toNat : ℤ) = (x - 1) % L.toNat + 1 := by
  rw [sub_one_emod_add_one (by omega), ← hq, seriesFix_toNat]
  push_cast
  simp only [Nat.cast_eq_zero]

/-- Settles O12: the two cases of the fix-up, its range, and the shift. -/
theorem seriesFixMapsZeroToLimit : Obligations.SeriesFixMapsZeroToLimit := by
  refine ⟨fun n q L h => ⟨fun h0 => ?_, fun h0 => ?_, seriesFix_mem h⟩, fun _ _ _ _ => seriesFix_toNat_of_emod⟩
  · exact if_pos (BitVec.eq_of_toNat_eq h0)
  · exact if_neg (mt (congrArg BitVec.toNat) h0)

/-! ## The series operations as the cycle operations renamed (43_series.md R96) -/

/-- The fix-up of a residue in the accumulator drives the fix-up of the residue driven. -/
theorem driveResult_seriesFix {w n : Nat} (hn : w + 1 ≤ n) {limit : BitVec w} {v : BitVec n}
    (h : v.toNat < (portModulus limit).toNat) :
    driveResult w (seriesFix v (promote n (portModulus limit))) = seriesFix (driveResult w v) limit := by
  apply BitVec.eq_of_toNat_eq
  rw [driveResult_seriesFix_toNat hn h, seriesFix_toNat, driveResult_toNat (h.trans_le (portModulus_le limit))]

section
variable {w : Nat} {a b m r : BitVec w} {pv : Bool}

theorem cycleAdd_of_ne (hm : m ≠ 0) :
    cycleAdd a b m = .ok (driveResult w (modAdd (Config.accWidth w) a b (portModulus m))) false :=
  unlessZeroModulus_of_ne hm _

theorem cycleSub_of_ne (hm : m ≠ 0) :
    cycleSub a b m = .ok (driveResult w (modSub (Config.accWidth w) a b (portModulus m))) false :=
  unlessZeroModulus_of_ne hm _

theorem toNat_of_cycleAdd_eq_ok (h : cycleAdd a b m = .ok r pv) : r.toNat = (a.toNat + b.toNat) % m.toNat := by
  obtain ⟨hm, ⟨⟩⟩ := unlessZeroModulus_eq_ok_iff.mp h
  have hn := succ_le_accWidth_of_ne_zero hm
  have hpos := portModulus_pos hm
  have hle := portModulus_le m
  rw [driveResult_toNat ((modAdd_lt hn a b hpos hle).trans_le hle), modAdd_toNat hn a b hpos hle, portModulus_toNat]

theorem seriesAdd_of_cycleAdd_eq_ok (h : cycleAdd a b m = .ok r pv) :
    seriesAdd a b m = .ok (seriesFix r m) (seriesPv a m) := by
  obtain ⟨hm, ⟨⟩⟩ := unlessZeroModulus_eq_ok_iff.mp h
  have hn := succ_le_accWidth_of_ne_zero hm
  rw [seriesAdd, unlessZeroModulus_of_ne hm,
    driveResult_seriesFix hn (modAdd_lt hn a b (portModulus_pos hm) (portModulus_le m))]

theorem seriesSub_of_cycleSub_eq_ok (h : cycleSub a b m = .ok r pv) :
    seriesSub a b m = .ok (seriesFix r m) (seriesPv a m) := by
  obtain ⟨hm, ⟨⟩⟩ := unlessZeroModulus_eq_ok_iff.mp h
  have hn := succ_le_accWidth_of_ne_zero hm
  rw [seriesSub, unlessZeroModulus_of_ne hm, driveResult_seriesFix hn (modSub_lt hn a b (portModulus_pos hm))]

/-- SERIES_MOD is the fix-up of the residue in the operand width. -/
theorem seriesMod_of_ne (hm : m ≠ 0) : seriesMod a m = .ok (seriesFix (a % m) m) false := by
  have hn := succ_le_accWidth_of_ne_zero hm
  have hred := reduce_promote_toNat hn a (portModulus m)
  have hlt := Nat.mod_lt a.toNat (portModulus_pos hm)
  have hdrive : driveResult w (reduce (promote (Config.accWidth w) a) (promote (Config.accWidth w) (portModulus m))) =
      a % m := by
    apply BitVec.eq_of_toNat_eq
    rw [driveResult_toNat (hred ▸ hlt.trans_le (portModulus_le m)), hred, portModulus_toNat, BitVec.toNat_umod]
  rw [seriesMod, unlessZeroModulus_of_ne hm, driveResult_seriesFix hn (hred ▸ hlt), hdrive]

end

/-- Settles O30: each series result is the fix-up of a residue that is known as a number. -/
theorem seriesIsCycleRenamed : Obligations.SeriesIsCycleRenamed := by
  intro wd a b limit hm
  have hadd := cycleAdd_of_ne (a := a) (b := b) hm
  have hsub := cycleSub_of_ne (a := a) (b := b) hm
  refine ⟨_, _, a % limit, seriesPv a limit, hadd, seriesAdd_of_cycleAdd_eq_ok hadd, hsub, seriesSub_of_cycleSub_eq_ok hsub,
    seriesMod_of_ne hm, BitVec.toNat_umod, seriesFix_toNat_of_emod ?_ ?_, ?_⟩
  · exact fun h => hm (BitVec.eq_of_toNat_eq h)
  · rw [BitVec.toNat_umod, Int.natCast_mod]
  · rw [seriesFix_toNat, toNat_of_cycleAdd_eq_ok hadd]

end Sys2Proof.Machine
end

section
/-! PROOFS. The rules of 41_rotary.md. At the native modulus 2^W the datapath drives the sum and the difference of two words, in
every accumulator of at least W + 1 bits; so the results (R72, R73) and the laws of the family (R76, R78) are those of words. -/

namespace Sys2Proof.Machine

/-! ## The datapath at the native modulus (40_datapath.md R64) -/

theorem nativeModulus_pos (w : Nat) : 1 ≤ (nativeModulus w).toNat := by
  rw [nativeModulus_toNat]
  exact Nat.one_le_two_pow

section
variable {w n : Nat} (a b : BitVec w)

/-- The difference of two words is the non-negative residue of the integers' difference (00_scope.md R11). -/
theorem toNat_sub_eq_emod : ((a - b).toNat : ℤ) = ((a.toNat : ℤ) - b.toNat) % 2 ^ w := by
  rw [BitVec.toNat_sub, Int.natCast_mod, Nat.cast_add, Nat.cast_sub b.isLt.le, sub_add_eq_add_sub, add_sub_assoc,
    Nat.cast_pow, Nat.cast_ofNat, Int.add_emod_left]

theorem driveResult_modAdd_nativeModulus (hn : w + 1 ≤ n) : driveResult w (modAdd n a b (nativeModulus w)) = a + b := by
  have hM := nativeModulus_toNat w
  have hpos := nativeModulus_pos w
  apply BitVec.eq_of_toNat_eq
  rw [driveResult_toNat (hM ▸ modAdd_lt hn a b hpos hM.le), modAdd_toNat hn a b hpos hM.le, hM, BitVec.toNat_add]

theorem driveResult_modSub_nativeModulus (hn : w + 1 ≤ n) : driveResult w (modSub n a b (nativeModulus w)) = a - b := by
  have hM := nativeModulus_toNat w
  have hpos := nativeModulus_pos w
  apply BitVec.eq_of_toNat_eq
  rw [driveResult_toNat (hM ▸ modSub_lt hn a b hpos)]
  apply Int.ofNat_inj.mp
  rw [modSub_toNat hn a b hpos, hM, toNat_sub_eq_emod, Nat.cast_pow, Nat.cast_ofNat]

/-- ROTARY_SUB wraps at 2^W, at every W. -/
theorem rotarySub_eq : rotarySub a b = .ok (a - b) false := by
  obtain rfl | hw := Nat.eq_zero_or_pos w
  · exact congrArg (Response.ok · false) (Subsingleton.elim _ _)
  · have hn : w + 1 ≤ Config.accWidth w := by
      rw [Config.accWidth]
      omega
    rw [rotarySub, driveResult_modSub_nativeModulus a b hn]

/-! ## The results of the family (R72, R73) -/

theorem rotaryAddRule_add : RotaryAddRule a b (a + b) := by
  refine ⟨?_, fun n hn => (driveResult_modAdd_nativeModulus a b hn).symm⟩
  rw [BitVec.toNat_add, Int.natCast_mod, Nat.cast_add, Nat.cast_pow, Nat.cast_ofNat]

theorem rotarySubRule_sub : RotarySubRule a b (a - b) :=
  ⟨toNat_sub_eq_emod a b, fun _ hn => (driveResult_modSub_nativeModulus a b hn).symm⟩

end

/-- A WAU that answers a result shows it on its ports (10_state.md R18). -/
theorem shows_present {w : Nat} {q : Request w} {p : Response w} {r : BitVec w} {pv : Bool} (h : p = .ok r pv) :
    (Wau.present q p).Shows q r pv := by
  subst h
  refine ⟨rfl, rfl, ?_⟩
  cases pv <;> rfl

/-- Settles O14: `exec` answers the request at its own WAU, and the answer is the sum of words. -/
theorem rotaryAddResult : Obligations.RotaryAddResult := fun s =>
  ⟨fun a b _ => ⟨_, a + b, exec_eq_evaluated _ s, shows_present (rotaryAdd_eq a b), sameBut_evaluated s (.r8 _),
      rotaryAddRule_add a b⟩,
    fun a b _ => ⟨_, a + b, exec_eq_evaluated _ s, shows_present (rotaryAdd_eq a b), sameBut_evaluated s (.r16 _),
      rotaryAddRule_add a b⟩,
    fun a b _ => ⟨_, a + b, exec_eq_evaluated _ s, shows_present (rotaryAdd_eq a b), sameBut_evaluated s (.r32 _),
      rotaryAddRule_add a b⟩,
    fun a b _ => ⟨_, a + b, exec_eq_evaluated _ s, shows_present (rotaryAdd_eq a b), sameBut_evaluated s (.r64 _),
      rotaryAddRule_add a b⟩⟩

/-- Settles O15: `exec` answers the request at its own WAU, and the answer is the difference of words. -/
theorem rotarySubResult : Obligations.RotarySubResult := fun s =>
  ⟨fun a b _ => ⟨_, a - b, exec_eq_evaluated _ s, shows_present (rotarySub_eq a b), sameBut_evaluated s (.r8 _),
      rotarySubRule_sub a b⟩,
    fun a b _ => ⟨_, a - b, exec_eq_evaluated _ s, shows_present (rotarySub_eq a b), sameBut_evaluated s (.r16 _),
      rotarySubRule_sub a b⟩,
    fun a b _ => ⟨_, a - b, exec_eq_evaluated _ s, shows_present (rotarySub_eq a b), sameBut_evaluated s (.r32 _),
      rotarySubRule_sub a b⟩,
    fun a b _ => ⟨_, a - b, exec_eq_evaluated _ s, shows_present (rotarySub_eq a b), sameBut_evaluated s (.r64 _),
      rotarySubRule_sub a b⟩⟩

/-! ## The laws of the family (R76, R78) -/

/-- Settles O23: the operations are the sum and the difference of words, which cancel. -/
theorem rotaryInverse : Obligations.RotaryInverse := by
  intro wd a b m m'
  refine ⟨a + b, a - b, rotaryAdd_eq a b, ?_, rotarySub_eq a b, ?_⟩
  · rw [ask_rotarySub, rotarySub_eq, BitVec.add_sub_cancel]
  · rw [ask_rotaryAdd, rotaryAdd_eq, BitVec.sub_add_cancel]

/-- Settles O24: each identity is the one of words under addition. -/
theorem rotaryIdentities : Obligations.RotaryIdentities := by
  intro wd a b c m
  simp only [ask_rotaryAdd, ask_rotarySub, rotaryAdd_eq, rotarySub_eq, BitVec.ofNat_eq_ofNat]
  refine ⟨?_, ⟨a + b, b + c, a + b + c, rfl, rfl, rfl, ?_⟩, ⟨0#_ - b, rfl, ?_⟩, ?_, ?_, ?_⟩
  · rw [BitVec.add_comm]
  · rw [BitVec.add_assoc]
  · rw [BitVec.zero_sub, BitVec.sub_eq_add_neg]
  · rw [BitVec.sub_self]
  · rw [BitVec.add_zero]
  · rw [BitVec.sub_zero]

end Sys2Proof.Machine
end

section
/-! PROOFS. The rules of 42_cycle.md. A cycle response is known from one residue modulo the base, whatever the accumulator; so the
results (R80, R81) are read off it, and the laws of the family (R83, R84, R86) are congruences of integers. -/

namespace Sys2Proof.Machine

section
variable {w n : Nat} {a b m r : BitVec w}

/-! ## The datapath at the base (40_datapath.md R64, R71) -/

theorem eq_driveResult_iff {v : BitVec n} (h : v.toNat < 2 ^ w) : r = driveResult w v ↔ (r.toNat : ℤ) = v.toNat := by
  rw [← BitVec.toNat_inj, driveResult_toNat h, Nat.cast_inj]

theorem eq_driveResult_modAdd_iff (hn : w + 1 ≤ n) (hm : m ≠ 0) :
    r = driveResult w (modAdd n a b (portModulus m)) ↔ (r.toNat : ℤ) = ((a.toNat : ℤ) + b.toNat) % m.toNat := by
  have hpos := portModulus_pos hm
  have hle := portModulus_le m
  rw [eq_driveResult_iff ((modAdd_lt hn a b hpos hle).trans_le hle), modAdd_toNat hn a b hpos hle, portModulus_toNat,
    Int.natCast_mod, Nat.cast_add]

theorem eq_driveResult_modSub_iff (hn : w + 1 ≤ n) (hm : m ≠ 0) :
    r = driveResult w (modSub n a b (portModulus m)) ↔ (r.toNat : ℤ) = ((a.toNat : ℤ) - b.toNat) % m.toNat := by
  have hpos := portModulus_pos hm
  rw [eq_driveResult_iff ((modSub_lt hn a b hpos).trans_le (portModulus_le m)), modSub_toNat hn a b hpos, portModulus_toNat]

/-! ## The response of each operation as a residue (R80, R81) -/

/-- CYCLE_ADD answers exactly the residue of the sum. -/
theorem cycleAdd_eq_ok_iff (hm : m ≠ 0) :
    cycleAdd a b m = .ok r false ↔ (r.toNat : ℤ) = ((a.toNat : ℤ) + b.toNat) % m.toNat := by
  rw [← eq_driveResult_modAdd_iff (succ_le_accWidth_of_ne_zero hm) hm, cycleAdd_of_ne hm, Response.ok.injEq,
    and_iff_left rfl, eq_comm]

/-- CYCLE_SUB answers exactly the residue of the difference. -/
theorem cycleSub_eq_ok_iff (hm : m ≠ 0) :
    cycleSub a b m = .ok r false ↔ (r.toNat : ℤ) = ((a.toNat : ℤ) - b.toNat) % m.toNat := by
  rw [← eq_driveResult_modSub_iff (succ_le_accWidth_of_ne_zero hm) hm, cycleSub_of_ne hm, Response.ok.injEq,
    and_iff_left rfl, eq_comm]

/-- The residue does not depend on the accumulator (00_scope.md R7). -/
theorem cycleAddRule_of_eq_ok (h : cycleAdd a b m = .ok r false) : CycleAddRule a b m r :=
  have ⟨hm, _⟩ := unlessZeroModulus_eq_ok_iff.mp h
  have hr := (cycleAdd_eq_ok_iff hm).mp h
  ⟨hr, fun _ hn => (eq_driveResult_modAdd_iff hn hm).mpr hr⟩

/-- The residue does not depend on the accumulator (00_scope.md R7). -/
theorem cycleSubRule_of_eq_ok (h : cycleSub a b m = .ok r false) : CycleSubRule a b m r :=
  have ⟨hm, _⟩ := unlessZeroModulus_eq_ok_iff.mp h
  have hr := (cycleSub_eq_ok_iff hm).mp h
  ⟨hr, fun _ hn => (eq_driveResult_modSub_iff hn hm).mpr hr⟩

/-- CYCLE_ADD sees no more of its operands than the residue of their sum. -/
theorem cycleAdd_congr {a' b' : BitVec w} (hm : m ≠ 0)
    (h : (a.toNat : ℤ) + b.toNat ≡ a'.toNat + b'.toNat [ZMOD m.toNat]) : cycleAdd a b m = cycleAdd a' b' m := by
  have hr := (cycleAdd_eq_ok_iff hm).mp (cycleAdd_of_ne (a := a) (b := b) hm)
  exact (cycleAdd_of_ne hm).trans ((cycleAdd_eq_ok_iff hm).mpr (hr.trans h)).symm

/-- CYCLE_SUB sees no more of its operands than the residue of their difference. -/
theorem cycleSub_congr {a' b' : BitVec w} (hm : m ≠ 0)
    (h : (a.toNat : ℤ) - b.toNat ≡ a'.toNat - b'.toNat [ZMOD m.toNat]) : cycleSub a b m = cycleSub a' b' m := by
  have hr := (cycleSub_eq_ok_iff hm).mp (cycleSub_of_ne (a := a) (b := b) hm)
  exact (cycleSub_of_ne hm).trans ((cycleSub_eq_ok_iff hm).mpr (hr.trans h)).symm

end

/-! ## The results of the family (R80, R81) -/

theorem unlessZeroModulus_of_eq_zero {w : Nat} {m : BitVec w} (h : m = 0) (p : Response w) :
    unlessZeroModulus m p = .fault .zeroModulus := if_pos h

/-- A WAU that answers a fault shows it on its ports (10_state.md R18). -/
theorem showsFault_present {w : Nat} {q : Request w} {p : Response w} {c : Cause} (h : p = .fault c) :
    (Wau.present q p).ShowsFault q c := by
  subst h
  refine ⟨rfl, rfl, ?_⟩
  cases c <;> rfl

/-- Settles O16: `exec` answers the request at its own WAU, with the residue or, at base 0, the fault. -/
theorem cycleAddResult : Obligations.CycleAddResult := fun s =>
  ⟨fun _ _ _ hm => ⟨_, _, exec_eq_evaluated _ s, shows_present (cycleAdd_of_ne hm), sameBut_evaluated s (.r8 _),
      cycleAddRule_of_eq_ok (cycleAdd_of_ne hm)⟩,
    fun _ _ _ hm => ⟨_, _, exec_eq_evaluated _ s, shows_present (cycleAdd_of_ne hm), sameBut_evaluated s (.r16 _),
      cycleAddRule_of_eq_ok (cycleAdd_of_ne hm)⟩,
    fun _ _ _ hm => ⟨_, _, exec_eq_evaluated _ s, shows_present (cycleAdd_of_ne hm), sameBut_evaluated s (.r32 _),
      cycleAddRule_of_eq_ok (cycleAdd_of_ne hm)⟩,
    fun _ _ _ hm => ⟨_, _, exec_eq_evaluated _ s, shows_present (cycleAdd_of_ne hm), sameBut_evaluated s (.r64 _),
      cycleAddRule_of_eq_ok (cycleAdd_of_ne hm)⟩,
    fun _ _ _ hm => ⟨_, exec_eq_evaluated _ s, showsFault_present (unlessZeroModulus_of_eq_zero hm _),
      sameBut_evaluated s (.r8 _)⟩,
    fun _ _ _ hm => ⟨_, exec_eq_evaluated _ s, showsFault_present (unlessZeroModulus_of_eq_zero hm _),
      sameBut_evaluated s (.r16 _)⟩,
    fun _ _ _ hm => ⟨_, exec_eq_evaluated _ s, showsFault_present (unlessZeroModulus_of_eq_zero hm _),
      sameBut_evaluated s (.r32 _)⟩,
    fun _ _ _ hm => ⟨_, exec_eq_evaluated _ s, showsFault_present (unlessZeroModulus_of_eq_zero hm _),
      sameBut_evaluated s (.r64 _)⟩⟩

/-- Settles O17: `exec` answers the request at its own WAU, with the residue or, at base 0, the fault. -/
theorem cycleSubResult : Obligations.CycleSubResult := fun s =>
  ⟨fun _ _ _ hm => ⟨_, _, exec_eq_evaluated _ s, shows_present (cycleSub_of_ne hm), sameBut_evaluated s (.r8 _),
      cycleSubRule_of_eq_ok (cycleSub_of_ne hm)⟩,
    fun _ _ _ hm => ⟨_, _, exec_eq_evaluated _ s, shows_present (cycleSub_of_ne hm), sameBut_evaluated s (.r16 _),
      cycleSubRule_of_eq_ok (cycleSub_of_ne hm)⟩,
    fun _ _ _ hm => ⟨_, _, exec_eq_evaluated _ s, shows_present (cycleSub_of_ne hm), sameBut_evaluated s (.r32 _),
      cycleSubRule_of_eq_ok (cycleSub_of_ne hm)⟩,
    fun _ _ _ hm => ⟨_, _, exec_eq_evaluated _ s, shows_present (cycleSub_of_ne hm), sameBut_evaluated s (.r64 _),
      cycleSubRule_of_eq_ok (cycleSub_of_ne hm)⟩,
    fun _ _ _ hm => ⟨_, exec_eq_evaluated _ s, showsFault_present (unlessZeroModulus_of_eq_zero hm _),
      sameBut_evaluated s (.r8 _)⟩,
    fun _ _ _ hm => ⟨_, exec_eq_evaluated _ s, showsFault_present (unlessZeroModulus_of_eq_zero hm _),
      sameBut_evaluated s (.r16 _)⟩,
    fun _ _ _ hm => ⟨_, exec_eq_evaluated _ s, showsFault_present (unlessZeroModulus_of_eq_zero hm _),
      sameBut_evaluated s (.r32 _)⟩,
    fun _ _ _ hm => ⟨_, exec_eq_evaluated _ s, showsFault_present (unlessZeroModulus_of_eq_zero hm _),
      sameBut_evaluated s (.r64 _)⟩⟩

/-! ## The laws of the family (R83, R84, R86) -/

/-- Settles O25: either composition leaves the residue of `a`, which is `a` exactly below the base. -/
theorem cycleInverse : Obligations.CycleInverse := by
  intro wd a b base hm
  have hadd := cycleAdd_of_ne (a := a) (b := b) hm
  have hsub := cycleSub_of_ne (a := a) (b := b) hm
  have hz : ((a % base).toNat : ℤ) = (a.toNat : ℤ) % base.toNat := by rw [BitVec.toNat_umod, Int.natCast_mod]
  have hlt := BitVec.umod_lt a ((BitVec.pos_iff_ne_zero base).mpr hm)
  refine ⟨_, _, a % base, hadd, (cycleSub_eq_ok_iff hm).mpr ?_, hsub, (cycleAdd_eq_ok_iff hm).mpr ?_, BitVec.toNat_umod,
    BitVec.umod_eq_of_lt, fun hle heq => BitVec.not_lt.mpr hle (heq ▸ hlt)⟩
  · rw [hz, (cycleAdd_eq_ok_iff hm).mp hadd, Int.emod_sub_emod, add_sub_cancel_right]
  · rw [hz, (cycleSub_eq_ok_iff hm).mp hsub, Int.emod_add_emod, sub_add_cancel]

theorem natCast_modEq_of_eq_mod {x y m : Nat} (h : x = y % m) : (x : ℤ) ≡ y [ZMOD m] :=
  Int.natCast_modEq_iff.mpr (h ▸ Nat.mod_modEq y m)

/-- Settles O26: a number is congruent to its residue, and congruences add and subtract. -/
theorem cycleReducesOperands : Obligations.CycleReducesOperands := by
  intro wd a b base a' b' hm ha' hb'
  have ha := natCast_modEq_of_eq_mod ha'
  have hb := natCast_modEq_of_eq_mod hb'
  exact ⟨cycleAdd_congr hm (hb.add_left _), cycleSub_congr hm (hb.sub_left _), cycleAdd_congr hm (ha.add hb),
    cycleSub_congr hm (ha.sub hb)⟩

theorem toNat_one_bits (wd : Width) : (1 : BitVec wd.bits).toNat = 1 := by
  cases wd <;> rfl

/-- Settles O27: each identity is one of the residues, and every residue modulo 1 is 0. -/
theorem cycleIdentities : Obligations.CycleIdentities := by
  intro wd a b base hm
  have hone := toNat_one_bits wd
  have hone_ne : (1 : BitVec wd.bits) ≠ 0 := fun h => by simp [h] at hone
  have hneg := cycleSub_of_ne (a := 0) (b := b) hm
  have hsub := cycleSub_of_ne (a := a) (b := b) hm
  refine ⟨cycleAdd_congr hm (by rw [add_comm]), ⟨a % base, BitVec.toNat_umod, (cycleAdd_eq_ok_iff hm).mpr ?_,
    (cycleSub_eq_ok_iff hm).mpr ?_⟩, (cycleSub_eq_ok_iff hm).mpr ?_, (cycleAdd_eq_ok_iff hone_ne).mpr ?_,
    (cycleSub_eq_ok_iff hone_ne).mpr ?_, _, hneg, hsub.trans ((cycleAdd_eq_ok_iff hm).mpr ?_).symm⟩
  · simp
  · simp
  · simp
  · rw [hone, Nat.cast_one, Int.emod_one]
    simp
  · rw [hone, Nat.cast_one, Int.emod_one]
    simp
  · rw [(cycleSub_eq_ok_iff hm).mp hsub, (cycleSub_eq_ok_iff hm).mp hneg, Int.add_emod_emod, BitVec.ofNat_eq_ofNat,
      BitVec.toNat_zero, Nat.cast_zero, zero_sub, sub_eq_add_neg]

end Sys2Proof.Machine
end

section
/-! PROOFS. The rules of 43_series.md. A series response is the one word of [1, limit] in a residue class modulo the limit,
whatever the accumulator; so the results (R90, R91, R92) are read off it, and the laws of the family (R94, R95, R97, R99) are
congruences of integers between words of the series. -/

namespace Sys2Proof.Machine

/-! ## The words of the series (60_exceptions.md R112) -/

section
variable {w : Nat} {a m r : BitVec w}

theorem seriesPv_eq_decide (a m : BitVec w) : seriesPv a m = decide (a.toNat = 0 ∨ m.toNat < a.toNat) := by
  rw [Bool.eq_iff_iff, seriesPv_iff, decide_eq_true_iff, BitVec.lt_def, ← BitVec.toNat_inj]
  rfl

/-- No violation is reported exactly for the words of [1, limit]. -/
theorem seriesPv_eq_false_iff : seriesPv a m = false ↔ 1 ≤ a.toNat ∧ a.toNat ≤ m.toNat := by
  rw [seriesPv_eq_decide, decide_eq_false_iff_not]
  omega

theorem toNat_pos_of_ne_zero (hm : m ≠ 0) : 1 ≤ m.toNat :=
  Nat.pos_of_ne_zero fun h => hm (BitVec.eq_of_toNat_eq h)

theorem seriesPv_self (hm : m ≠ 0) : seriesPv m m = false :=
  seriesPv_eq_false_iff.mpr ⟨toNat_pos_of_ne_zero hm, le_rfl⟩

/-- The one-based shift of an integer is the word of [1, limit] in its residue class. -/
theorem eq_sub_one_emod_add_one_iff (hm : m ≠ 0) {x : ℤ} :
    (r.toNat : ℤ) = (x - 1) % m.toNat + 1 ↔ seriesPv r m = false ∧ (r.toNat : ℤ) ≡ x [ZMOD m.toNat] := by
  have hpos : (0 : ℤ) < m.toNat := Int.natCast_pos.mpr (toNat_pos_of_ne_zero hm)
  rw [seriesPv_eq_false_iff]
  constructor
  · intro h
    have hnonneg := Int.emod_nonneg (x - 1) hpos.ne'
    have hlt := Int.emod_lt_of_pos (x - 1) hpos
    refine ⟨by omega, ?_⟩
    rw [h]
    simpa using (Int.mod_modEq (x - 1) m.toNat).add_right 1
  · rintro ⟨⟨hone, hle⟩, h⟩
    rw [← (h.sub_right 1).eq, Int.emod_eq_of_lt] <;> omega

end

/-! ## The datapath at the limit (40_datapath.md R64, R68, R71) -/

section
variable {w n : Nat} {a b m r : BitVec w} {pv : Bool}

/-- The fix-up of an integer's residue drives the one-based shift of that integer, whatever the accumulator. -/
theorem eq_driveResult_seriesFix_iff (hn : w + 1 ≤ n) (hm : m ≠ 0) {x : ℤ} {v : BitVec n}
    (hv : (v.toNat : ℤ) = x % m.toNat) :
    r = driveResult w (seriesFix v (promote n (portModulus m))) ↔ (r.toNat : ℤ) = (x - 1) % m.toNat + 1 := by
  have hL : (promote n (portModulus m)).toNat = m.toNat := (promote_toNat hn _).trans (portModulus_toNat m)
  have hpos := toNat_pos_of_ne_zero hm
  have hlt := Int.emod_lt_of_pos x (Int.natCast_pos.mpr hpos)
  have hle := seriesFix_le (q := v) (L := promote n (portModulus m)) (by omega)
  rw [eq_driveResult_iff ((hle.trans_eq hL).trans_lt m.isLt),
    seriesFix_toNat_of_emod (x := x) (hL ▸ Nat.ne_of_gt hpos) (hL ▸ hv), hL]

theorem modAdd_portModulus_toNat (hn : w + 1 ≤ n) (hm : m ≠ 0) :
    ((modAdd n a b (portModulus m)).toNat : ℤ) = ((a.toNat : ℤ) + b.toNat) % m.toNat := by
  rw [modAdd_toNat hn a b (portModulus_pos hm) (portModulus_le m), portModulus_toNat, Int.natCast_mod, Nat.cast_add]

theorem modSub_portModulus_toNat (hn : w + 1 ≤ n) (hm : m ≠ 0) :
    ((modSub n a b (portModulus m)).toNat : ℤ) = ((a.toNat : ℤ) - b.toNat) % m.toNat := by
  rw [modSub_toNat hn a b (portModulus_pos hm), portModulus_toNat]

theorem reduce_portModulus_toNat (hn : w + 1 ≤ n) :
    ((reduce (promote n a) (promote n (portModulus m))).toNat : ℤ) = (a.toNat : ℤ) % m.toNat := by
  rw [reduce_promote_toNat hn, portModulus_toNat, Int.natCast_mod]

/-! ## The results over the integers, at every W (R90, R91, R92) -/

/-- The one-based shift of the sum does not depend on the accumulator (00_scope.md R7). -/
theorem seriesAddRule_of_eq_ok (h : seriesAdd a b m = .ok r pv) : SeriesAddRule a b m r := by
  obtain ⟨hm, ⟨⟩⟩ := unlessZeroModulus_eq_ok_iff.mp h
  have hacc := succ_le_accWidth_of_ne_zero hm
  have hr := (eq_driveResult_seriesFix_iff hacc hm (modAdd_portModulus_toNat hacc hm (a := a) (b := b))).mp rfl
  exact ⟨by rw [hr, sub_add_eq_add_sub], fun n hn =>
    (eq_driveResult_seriesFix_iff hn hm (modAdd_portModulus_toNat hn hm)).mpr hr⟩

/-- The one-based shift of the difference does not depend on the accumulator (00_scope.md R7). -/
theorem seriesSubRule_of_eq_ok (h : seriesSub a b m = .ok r pv) : SeriesSubRule a b m r := by
  obtain ⟨hm, ⟨⟩⟩ := unlessZeroModulus_eq_ok_iff.mp h
  have hacc := succ_le_accWidth_of_ne_zero hm
  have hr := (eq_driveResult_seriesFix_iff hacc hm (modSub_portModulus_toNat hacc hm (a := a) (b := b))).mp rfl
  exact ⟨by rw [hr, sub_right_comm], fun n hn =>
    (eq_driveResult_seriesFix_iff hn hm (modSub_portModulus_toNat hn hm)).mpr hr⟩

/-- The renamed residue does not depend on the accumulator (00_scope.md R7). -/
theorem seriesModRule_of_eq_ok (h : seriesMod a m = .ok r pv) : SeriesModRule a m r := by
  obtain ⟨hm, ⟨⟩⟩ := unlessZeroModulus_eq_ok_iff.mp h
  have hacc := succ_le_accWidth_of_ne_zero hm
  have hr := (eq_driveResult_seriesFix_iff hacc hm (reduce_portModulus_toNat hacc (a := a))).mp rfl
  refine ⟨?_, fun n hn => (eq_driveResult_seriesFix_iff hn hm (reduce_portModulus_toNat hn)).mpr hr⟩
  rw [sub_one_emod_add_one (Int.natCast_pos.mpr (toNat_pos_of_ne_zero hm))] at hr
  exact_mod_cast hr

/-! ## The response of each operation as a word of the series -/

/-- SERIES_ADD answers exactly the word of the series that is congruent to the sum. -/
theorem seriesAdd_eq_ok_iff (hm : m ≠ 0) :
    seriesAdd a b m = .ok r pv ↔
      (seriesPv r m = false ∧ (r.toNat : ℤ) ≡ a.toNat + b.toNat [ZMOD m.toNat]) ∧ seriesPv a m = pv := by
  have hacc := succ_le_accWidth_of_ne_zero hm
  rw [← eq_sub_one_emod_add_one_iff hm, ← eq_driveResult_seriesFix_iff hacc hm (modAdd_portModulus_toNat hacc hm),
    seriesAdd, unlessZeroModulus_of_ne hm, Response.ok.injEq, eq_comm (a := r)]

/-- SERIES_SUB answers exactly the word of the series that is congruent to the difference. -/
theorem seriesSub_eq_ok_iff (hm : m ≠ 0) :
    seriesSub a b m = .ok r pv ↔
      (seriesPv r m = false ∧ (r.toNat : ℤ) ≡ a.toNat - b.toNat [ZMOD m.toNat]) ∧ seriesPv a m = pv := by
  have hacc := succ_le_accWidth_of_ne_zero hm
  rw [← eq_sub_one_emod_add_one_iff hm, ← eq_driveResult_seriesFix_iff hacc hm (modSub_portModulus_toNat hacc hm),
    seriesSub, unlessZeroModulus_of_ne hm, Response.ok.injEq, eq_comm (a := r)]

/-- SERIES_MOD answers exactly the word of the series that is congruent to its operand. -/
theorem seriesMod_eq_ok_iff (hm : m ≠ 0) :
    seriesMod a m = .ok r false ↔ seriesPv r m = false ∧ (r.toNat : ℤ) ≡ a.toNat [ZMOD m.toNat] := by
  have hacc := succ_le_accWidth_of_ne_zero hm
  rw [← eq_sub_one_emod_add_one_iff hm, ← eq_driveResult_seriesFix_iff hacc hm (reduce_portModulus_toNat hacc),
    seriesMod, unlessZeroModulus_of_ne hm, Response.ok.injEq, and_iff_left rfl, eq_comm (a := r)]

theorem exists_seriesAdd_eq_ok (a b : BitVec w) (hm : m ≠ 0) : ∃ r, seriesAdd a b m = .ok r (seriesPv a m) :=
  ⟨_, unlessZeroModulus_of_ne hm _⟩

theorem exists_seriesSub_eq_ok (a b : BitVec w) (hm : m ≠ 0) : ∃ r, seriesSub a b m = .ok r (seriesPv a m) :=
  ⟨_, unlessZeroModulus_of_ne hm _⟩

theorem exists_seriesMod_eq_ok (a : BitVec w) (hm : m ≠ 0) : ∃ r, seriesMod a m = .ok r false :=
  ⟨_, unlessZeroModulus_of_ne hm _⟩

/-- A word of the series is its own normalisation. -/
theorem seriesMod_of_mem (hm : m ≠ 0) (h : seriesPv a m = false) : seriesMod a m = .ok a false :=
  (seriesMod_eq_ok_iff hm).mpr ⟨h, rfl⟩

/-- A multiple of the limit is normalised to the limit. -/
theorem seriesMod_zero (hm : m ≠ 0) : seriesMod 0 m = .ok m false :=
  (seriesMod_eq_ok_iff hm).mpr ⟨seriesPv_self hm, Int.emod_self.trans (Int.zero_emod _).symm⟩

end

/-! ## The results of the family, at the WAU of each width (R90, R91, R92) -/

/-- An evaluation changes only the WAU of the width that its request names. -/
theorem sameBut_evaluated_of_width (s : State) {p : Presented} {wd : Width} (h : p.width = wd) :
    SameBut wd s (s.evaluated p) :=
  h ▸ sameBut_evaluated s p

/-- Settles O18: at each of the four widths `exec` answers with the one-based shift of the sum, and at limit 0 with the fault. -/
theorem seriesAddResult : Obligations.SeriesAddResult := by
  unfold Obligations.SeriesAddResult
  simp only [← seriesPv_eq_decide]
  refine fun s => ⟨?_, ?_, ?_, ?_, ?_, ?_, ?_, ?_⟩ <;> intro a b m hm
  -- A limit other than 0, at the four widths.
  iterate 4
    obtain ⟨r, hr⟩ := exists_seriesAdd_eq_ok a b hm
    exact ⟨_, r, exec_eq_evaluated _ s, shows_present hr, sameBut_evaluated_of_width s rfl, seriesAddRule_of_eq_ok hr⟩
  -- The limit 0.
  iterate 4
    exact ⟨_, exec_eq_evaluated _ s, showsFault_present (unlessZeroModulus_of_eq_zero hm _),
      sameBut_evaluated_of_width s rfl⟩

/-- Settles O19: at each of the four widths `exec` answers with the one-based shift of the difference, and at limit 0 with the
fault. -/
theorem seriesSubResult : Obligations.SeriesSubResult := by
  unfold Obligations.SeriesSubResult
  simp only [← seriesPv_eq_decide]
  refine fun s => ⟨?_, ?_, ?_, ?_, ?_, ?_, ?_, ?_⟩ <;> intro a b m hm
  -- A limit other than 0, at the four widths.
  iterate 4
    obtain ⟨r, hr⟩ := exists_seriesSub_eq_ok a b hm
    exact ⟨_, r, exec_eq_evaluated _ s, shows_present hr, sameBut_evaluated_of_width s rfl, seriesSubRule_of_eq_ok hr⟩
  -- The limit 0.
  iterate 4
    exact ⟨_, exec_eq_evaluated _ s, showsFault_present (unlessZeroModulus_of_eq_zero hm _),
      sameBut_evaluated_of_width s rfl⟩

/-- Settles O20: at each of the four widths `exec` answers with the renamed residue, and at limit 0 with the fault. -/
theorem seriesModResult : Obligations.SeriesModResult := by
  refine fun s => ⟨?_, ?_, ?_, ?_, ?_, ?_, ?_, ?_⟩ <;> intro a b m hm
  -- A limit other than 0, at the four widths.
  iterate 4
    obtain ⟨r, hr⟩ := exists_seriesMod_eq_ok a hm
    exact ⟨_, r, exec_eq_evaluated _ s, shows_present hr, sameBut_evaluated_of_width s rfl, seriesModRule_of_eq_ok hr⟩
  -- The limit 0.
  iterate 4
    exact ⟨_, exec_eq_evaluated _ s, showsFault_present (unlessZeroModulus_of_eq_zero hm _),
      sameBut_evaluated_of_width s rfl⟩

/-! ## The laws of the family (R94, R95, R97, R99) -/

/-- Settles O28: either composition leaves the residue class of `a`, whose word of the series is `a` exactly where `a` is one. -/
theorem seriesInverse : Obligations.SeriesInverse := by
  intro wd a b c limit hm
  obtain ⟨x, hadd⟩ := exists_seriesAdd_eq_ok a b hm
  obtain ⟨y, hsub⟩ := exists_seriesSub_eq_ok a b hm
  obtain ⟨z, hmod⟩ := exists_seriesMod_eq_ok a hm
  obtain ⟨⟨hx, hxab⟩, -⟩ := (seriesAdd_eq_ok_iff hm).mp hadd
  obtain ⟨⟨hy, hyab⟩, -⟩ := (seriesSub_eq_ok_iff hm).mp hsub
  obtain ⟨hz, hza⟩ := (seriesMod_eq_ok_iff hm).mp hmod
  refine ⟨x, y, z, seriesPv a limit, hadd, (seriesSub_eq_ok_iff hm).mpr ⟨⟨hz, hza.trans ?_⟩, hx⟩, hsub,
    (seriesAdd_eq_ok_iff hm).mpr ⟨⟨hz, hza.trans ?_⟩, hy⟩, hmod, seriesPv_iff a limit, fun ha => ?_, fun h => h ▸ hz⟩
  · simpa using (hxab.sub_right b.toNat).symm
  · simpa using (hyab.add_right b.toNat).symm
  · exact (Response.ok.inj (hmod.symm.trans (seriesMod_of_mem hm ha))).1

/-- Settles O29: the limit is a word of the series, in the residue class of 0. -/
theorem seriesModBoundary : Obligations.SeriesModBoundary := fun _ _ _ hm =>
  ⟨seriesMod_of_mem hm (seriesPv_self hm), seriesMod_zero hm⟩

/-- Settles O31: each identity names the word of the series in a residue class. -/
theorem seriesIdentities : Obligations.SeriesIdentities := by
  intro wd a b c x limit hm
  have hlimit := seriesPv_self hm
  have hone := toNat_one_bits wd
  have hone_ne : (1 : BitVec wd.bits) ≠ 0 := fun h => by simp [h] at hone
  have hone_mem : seriesPv 1 limit = false := seriesPv_eq_false_iff.mpr ⟨hone.ge, hone ▸ toNat_pos_of_ne_zero hm⟩
  have hclass (y : ℤ) : ((1 : BitVec wd.bits).toNat : ℤ) ≡ y [ZMOD (1 : BitVec wd.bits).toNat] := by
    rw [hone]
    exact Int.modEq_one
  refine ⟨fun hne hle => ?_, (seriesAdd_eq_ok_iff hm).mpr ⟨⟨hone_mem, ?_⟩, hlimit⟩,
    (seriesSub_eq_ok_iff hm).mpr ⟨⟨hlimit, ?_⟩, hone_mem⟩, ?_, ?_, ?_⟩
  · have ha : seriesPv a limit = false := seriesPv_eq_false_iff.mpr ⟨toNat_pos_of_ne_zero hne, hle⟩
    refine ⟨(seriesAdd_eq_ok_iff hm).mpr ⟨⟨ha, ?_⟩, ha⟩, (seriesSub_eq_ok_iff hm).mpr ⟨⟨ha, ?_⟩, ha⟩,
      seriesMod_of_mem hm ha, (seriesAdd_eq_ok_iff hm).mpr ⟨⟨ha, ?_⟩, ha⟩,
      (seriesSub_eq_ok_iff hm).mpr ⟨⟨ha, ?_⟩, ha⟩, (seriesSub_eq_ok_iff hm).mpr ⟨⟨hlimit, ?_⟩, ha⟩⟩ <;>
      simp [Int.ModEq]
  · simp [Int.ModEq]
  · simp [Int.ModEq]
  · obtain ⟨y, hy⟩ := exists_seriesMod_eq_ok x hm
    exact ⟨y, hy, seriesMod_of_mem hm ((seriesMod_eq_ok_iff hm).mp hy).1⟩
  · exact ⟨seriesPv a 1, (seriesAdd_eq_ok_iff hone_ne).mpr ⟨⟨seriesPv_self hone_ne, hclass _⟩, rfl⟩,
      (seriesSub_eq_ok_iff hone_ne).mpr ⟨⟨seriesPv_self hone_ne, hclass _⟩, rfl⟩,
      (seriesMod_eq_ok_iff hone_ne).mpr ⟨seriesPv_self hone_ne, hclass _⟩⟩
  · obtain ⟨r, hr⟩ := exists_seriesAdd_eq_ok a b hm
    obtain ⟨hmem, -⟩ := (seriesAdd_eq_ok_iff hm).mp hr
    exact ⟨r, _, _, hr, (seriesAdd_eq_ok_iff hm).mpr ⟨add_comm (a.toNat : ℤ) b.toNat ▸ hmem, rfl⟩,
      seriesPv_iff a limit, seriesPv_iff b limit⟩

/-- Settles O33: an operand and its normalised value lie in one residue class, so both are answered with the same word of the
series. -/
theorem violatedPreconditionResult : Obligations.ViolatedPreconditionResult := by
  intro wd a b c limit hm hout
  obtain ⟨v, hmod⟩ := exists_seriesMod_eq_ok a hm
  obtain ⟨x, hadd⟩ := exists_seriesAdd_eq_ok a b hm
  obtain ⟨y, hsub⟩ := exists_seriesSub_eq_ok a b hm
  obtain ⟨hv, hva⟩ := (seriesMod_eq_ok_iff hm).mp hmod
  obtain ⟨⟨hx, hxab⟩, -⟩ := (seriesAdd_eq_ok_iff hm).mp hadd
  obtain ⟨⟨hy, hyab⟩, -⟩ := (seriesSub_eq_ok_iff hm).mp hsub
  rw [(seriesPv_iff a limit).mpr hout] at hadd hsub
  refine ⟨v, x, y, hmod, fun h0 => ?_, hadd, (seriesAdd_eq_ok_iff hm).mpr ⟨⟨hx, hxab.trans (hva.symm.add_right _)⟩, hv⟩,
    hsub, (seriesSub_eq_ok_iff hm).mpr ⟨⟨hy, hyab.trans (hva.symm.sub_right _)⟩, hv⟩⟩
  rw [h0] at hmod
  exact (Response.ok.inj (hmod.symm.trans (seriesMod_zero hm))).1

end Sys2Proof.Machine
end

section
/-! PROOFS. The rules of 60_exceptions.md. A request has one of three outcomes, told apart by its code and its `m`: ILLEGAL_OP,
ZERO_MODULUS, or a result, whose advisory bit only SERIES_ADD and SERIES_SUB can raise. The conditions of the faults (R104 to
R106) and of `pv` (R112) are read off these three. -/

namespace Sys2Proof.Machine

/-! ## The three outcomes of a request (R104, R105, R106, R112) -/

/-- The operation reports a violated precondition on `pv` (R112). -/
def reportsPv (o : Op) : Bool := o == .seriesAdd || o == .seriesSub

theorem readsM_ofCode_iff : ∀ c : BitVec 3, readsM (Op.ofCode c) = true ↔ c = 2 ∨ c = 3 ∨ c = 4 ∨ c = 5 ∨ c = 6 := by
  decide

theorem reportsPv_ofCode_iff : ∀ c : BitVec 3, reportsPv (Op.ofCode c) = true ↔ c = 4 ∨ c = 5 := by
  decide

theorem ofCode_eq_reserved_iff : ∀ c : BitVec 3, Op.ofCode c = .reserved ↔ c = 7 := by
  decide

section
variable {w : Nat} {o : Op} {a b m : BitVec w}

/-- An operation that reads a zero `m` answers the fault, whatever `a` and `b` hold. -/
theorem ask_of_readsM_of_eq_zero (ho : readsM o = true) (hm : m = 0) : ask o a b m = .fault .zeroModulus := by
  cases o with
  | rotaryAdd | rotarySub | reserved => cases ho
  | cycleAdd | cycleSub | seriesAdd | seriesSub | seriesMod => exact unlessZeroModulus_of_eq_zero hm _

/-- An operation that reads no zero `m` answers a result. -/
theorem exists_ask_eq_ok (ho : o ≠ .reserved) (hm : readsM o = true → m ≠ 0) :
    ∃ r, ask o a b m = .ok r (reportsPv o && seriesPv a m) := by
  cases o with
  | rotaryAdd | rotarySub => exact ⟨_, rfl⟩
  | cycleAdd | cycleSub | seriesAdd | seriesSub | seriesMod => exact ⟨_, unlessZeroModulus_of_ne (hm rfl) _⟩
  | reserved => exact absurd rfl ho

end

section
variable {w : Nat} {q : Request w}

theorem evaluate_of_reserved (h : q.op = 7) : evaluate q = .fault .illegalOp := by
  rw [evaluate_eq_ask, (ofCode_eq_reserved_iff q.op).mpr h, ask_reserved]

theorem exists_evaluate_eq_ok (h : NoFault q) : ∃ r, evaluate q = .ok r (reportsPv (Op.ofCode q.op) && seriesPv q.a q.m) := by
  rw [evaluate_eq_ask]
  exact exists_ask_eq_ok (mt (ofCode_eq_reserved_iff q.op).mp h.1) h.2

/-- All a response can be: each fault under its condition, and a result where neither condition holds. -/
theorem evaluate_cases (q : Request w) :
    (q.op = 7 ∧ evaluate q = .fault .illegalOp) ∨
    (readsM (Op.ofCode q.op) = true ∧ q.m = 0 ∧ evaluate q = .fault .zeroModulus) ∨
    (NoFault q ∧ ∃ r, evaluate q = .ok r (reportsPv (Op.ofCode q.op) && seriesPv q.a q.m)) := by
  by_cases hop : q.op = 7
  · exact .inl ⟨hop, evaluate_of_reserved hop⟩
  by_cases hm : readsM (Op.ofCode q.op) = true ∧ q.m = 0
  · exact .inr (.inl ⟨hm.1, hm.2, (evaluate_eq_ask q).trans (ask_of_readsM_of_eq_zero hm.1 hm.2)⟩)
  · have h : NoFault q := ⟨hop, not_and.mp hm⟩
    exact .inr (.inr ⟨h, exists_evaluate_eq_ok h⟩)

theorem evaluate_eq_illegalOp_iff : evaluate q = .fault .illegalOp ↔ q.op = 7 := by
  refine ⟨fun h => ?_, evaluate_of_reserved⟩
  rw [evaluate_eq_ask] at h
  exact (ofCode_eq_reserved_iff q.op).mp (eq_reserved_of_ask_eq_illegalOp h)

theorem evaluate_eq_zeroModulus_iff : evaluate q = .fault .zeroModulus ↔ readsM (Op.ofCode q.op) = true ∧ q.m = 0 := by
  refine ⟨fun h => ?_, fun ⟨hop, hm⟩ => (evaluate_eq_ask q).trans (ask_of_readsM_of_eq_zero hop hm)⟩
  obtain ⟨-, hq⟩ | ⟨hop, hm, -⟩ | ⟨-, r, hq⟩ := evaluate_cases q
  · cases hq.symm.trans h
  · exact ⟨hop, hm⟩
  · cases hq.symm.trans h

end

/-! ## The status ports (10_state.md R18) -/

/-- The `cause` port tells the two faults and their absence apart, and 0b11 is never on it (R104). -/
theorem ports_cause_iff {w : Nat} (p : Response w) :
    (p.ports.fault = 0 ↔ p.ports.cause = 0b00) ∧ (p.ports.cause = 0b01 ↔ p = .fault .zeroModulus) ∧
      (p.ports.cause = 0b10 ↔ p = .fault .illegalOp) ∧ p.ports.cause ≠ 0b11 := by
  match p with
  | .ok _ _ => simp [Response.ports]
  | .fault .zeroModulus => simp [Response.ports, Cause.code]
  | .fault .illegalOp => simp [Response.ports, Cause.code]

theorem ports_pv_eq_one_iff {w : Nat} {p : Response w} : p.ports.pv = 1 ↔ ∃ r, p = .ok r true := by
  match p with
  | .ok _ true => simp [Response.ports]
  | .ok _ false => simp [Response.ports]
  | .fault _ => simp [Response.ports]

/-! ## The conditions -/

/-- Settles O21: the reserved code has one response, and `exec` delivers it on the ports that the request names. -/
theorem reservedCodeFaults : Obligations.ReservedCodeFaults := fun s =>
  ⟨fun _ _ _ => ⟨_, exec_eq_evaluated _ s, showsFault_present rfl, sameBut_evaluated s (.r8 _)⟩,
    fun _ _ _ => ⟨_, exec_eq_evaluated _ s, showsFault_present rfl, sameBut_evaluated s (.r16 _)⟩,
    fun _ _ _ => ⟨_, exec_eq_evaluated _ s, showsFault_present rfl, sameBut_evaluated s (.r32 _)⟩,
    fun _ _ _ => ⟨_, exec_eq_evaluated _ s, showsFault_present rfl, sameBut_evaluated s (.r64 _)⟩⟩

/-- Settles O34: each cause has its condition, which names neither `a` nor `b`, and its code. -/
theorem faultConditions : Obligations.FaultConditions := by
  intro w q
  rw [← readsM_ofCode_iff]
  exact ⟨evaluate_eq_illegalOp_iff, evaluate_eq_zeroModulus_iff, ports_cause_iff (evaluate q)⟩

/-- The advisory bit is raised exactly beside a result of an operation that reports it, for an `a` outside [1, limit]. -/
theorem evaluate_pv_eq_one_iff {w : Nat} (q : Request w) :
    (evaluate q).ports.pv = 1 ↔
      (evaluate q).ports.fault = 0 ∧ reportsPv (Op.ofCode q.op) = true ∧ seriesPv q.a q.m = true := by
  obtain ⟨-, hq⟩ | ⟨-, -, hq⟩ | ⟨-, r, hq⟩ := evaluate_cases q <;>
    rw [hq, ports_pv_eq_one_iff] <;>
    simp [Response.ports]

/-- Settles O35: `pv` comes from the result of SERIES_ADD or SERIES_SUB, which is the rule's value for every `a`. -/
theorem pvConditions : Obligations.PvConditions := by
  intro wd q
  have hiff := evaluate_pv_eq_one_iff q
  rw [reportsPv_ofCode_iff, seriesPv_iff] at hiff
  refine ⟨hiff, fun hpv => ?_⟩
  obtain ⟨r, hr⟩ := ports_pv_eq_one_iff.mp hpv
  obtain ⟨-, hop, -⟩ := hiff.mp hpv
  have hask := (evaluate_eq_ask q).symm.trans hr
  obtain hop | hop := hop <;> rw [hop] at hask ⊢
  · obtain ⟨hpos, hle⟩ := mem_of_seriesAdd_eq_ok hask
    exact ⟨r, hr, hpos, hle, fun _ => (seriesAddRule_of_eq_ok hask).1, nofun⟩
  · obtain ⟨hpos, hle⟩ := mem_of_seriesSub_eq_ok hask
    exact ⟨r, hr, hpos, hle, nofun, fun _ => (seriesSubRule_of_eq_ok hask).1⟩

/-! ## After a fault (R111) -/

/-- A request that meets no fault condition is answered with a result, at whichever WAU. -/
theorem exists_answerOf_result {p : Presented} (h : p.MeetsNoFault) :
    (answerOf p).cause? = none ∧ ∃ v, (answerOf p).result? = some v := by
  cases p with
  | r8 q | r16 q | r32 q | r64 q =>
    obtain ⟨r, hr⟩ := exists_evaluate_eq_ok h
    rw [answerOf, hr]
    exact ⟨rfl, r.toNat, rfl⟩

/-- Settles O40: the response is `Exec_W` of the request alone, whatever the outputs showed before, and the record is the
host's. -/
theorem faultIsNotSticky : Obligations.FaultIsNotSticky := by
  intro s i x c _ _ h
  obtain ⟨hcause, v, hv⟩ := exists_answerOf_result h
  refine ⟨s.evaluated i.request, answerOf i.request, v, exec_eq_evaluated i s, output_evaluated s i.request, hcause, hv, ?_⟩
  rw [State.faultRecord, State.evaluated_run, State.faultRecord]

end Sys2Proof.Machine
end

section
/-! PROOFS. The rules of 70_reset_and_hazards.md: when the inputs hold a request, and what the outputs show then and before
(R125, R127). -/

namespace Sys2Proof.Machine

/-- All four inputs must be driven, those the operation does not read too (R127). -/
theorem request?_eq_some_iff {w : Nat} {p : InPorts w} {q : Request w} :
    p.request? = some q ↔ p = InPorts.ofRequest q := by
  constructor
  · intro h
    obtain ⟨_ | op, _ | a, _ | b, _ | m⟩ := p <;> cases h
    rfl
  · rintro rfl
    exact InPorts.request?_ofRequest q

theorem request?_eq_none_iff {w : Nat} {p : InPorts w} :
    p.request? = none ↔ p.op = none ∨ p.a = none ∨ p.b = none ∨ p.m = none := by
  obtain ⟨_ | op, _ | a, _ | b, _ | m⟩ := p <;> simp [InPorts.request?]

/-- A settled WAU shows `Exec_W` of the request on its inputs, and nothing while they hold none (R125). -/
theorem Wau.settled_iff {w : Nat} (u : Wau w) :
    u.Settled ↔ (∀ q, u.inp = InPorts.ofRequest q → u.out = some (evaluate q)) ∧ (u.inp.request? = none → u.out = none) := by
  simp only [← request?_eq_some_iff, Wau.Settled]
  cases u.inp.request? with
  | none => simp
  | some q => simp

/-- Settles O45: the idle step is `State.settle`, and the inputs hold a request exactly when all four are driven. -/
theorem idleStepSettles : Obligations.IdleStepSettles := by
  refine ⟨fun s hs => ⟨s.settle, step_of_script_nil hs, rfl, rfl, rfl, rfl, rfl, settled_settle s⟩, fun w u => ?_⟩
  rw [u.settled_iff, request?_eq_none_iff]
  exact and_congr_left' ⟨fun h op a b m => h ⟨op, a, b, m⟩, fun h q => h q.op q.a q.b q.m⟩

end Sys2Proof.Machine
end
